-- ==== Sys2Proof/Word.lean ====
section
/-! DEFINITION. The machine's word types. -/

namespace Sys2Proof

/-- A byte of IN, CUR, PRIOR or TRNS, and an 8-bit register field. -/
abbrev Byte := BitVec 8

/-- A 16-bit sample or channel. -/
abbrev Half := BitVec 16

/-- A host-visible register: 32 bits (`00_scope.md` R7). -/
abbrev Word := BitVec 32

end Sys2Proof
end

