-- ==== Sys2Proof/Syntax.lean ====
section
/-! DEFINITION. The instructions: one constructor per row of spec/opcode_table.json. No encoding of the PDE has an immediate
field, a register field or an addressing mode (`30_encoding.md` R101), so no constructor carries an operand. -/

namespace Sys2Proof

/-- The 25 rows of the opcode table. -/
inductive Instr where
  -- filter-type selectors (`30_encoding.md` R91)
  | filtNone | filtSub | filtUp | filtAvg | filtPaeth
  -- host commands (`30_encoding.md` R98)
  | nop | start | convertRgba8 | convertRgba16 | release
  -- pixel-assembly modes (`30_encoding.md` R102)
  | modeGray1 | modeGray2 | modeGray4 | modeGray8 | modeGray16
  | modeRgb8 | modeRgb16
  | modeIdx1 | modeIdx2 | modeIdx4 | modeIdx8
  | modeGa8 | modeGa16
  | modeRgba8 | modeRgba16
  deriving DecidableEq, Repr

end Sys2Proof
end

