-- ==== Sys2Proof/WellFormed.lean ====
section
/-! DEFINITION. Which code words fit the format they claim, and which instructions are well formed. -/

namespace Sys2Proof

/-- The three kinds of encoded input the PDE decodes (`30_encoding.md`, opening list). -/
inductive Format where
  /-- The byte that heads a row record (R91). -/
  | filter
  /-- The 32-bit value written to CMD (R98). -/
  | command
  /-- The pair (COLOR_TYPE, BIT_DEPTH) of CFG_FORMAT bits [15:0] (R102). -/
  | mode
  deriving DecidableEq, Repr

/-- The width of a format's code word in bits. -/
def Format.width : Format → Nat
  | .filter => 8
  | .command => 32
  | .mode => 16

/-- A code word: the place it was found in and its bits, bit 0 the least significant. -/
structure CodeWord where
  format : Format
  bits : Word
  deriving DecidableEq, Repr

/-- A selector has 8 bits and a mode key 16; a command may be any 32-bit value. -/
def CodeWord.wellFormed (c : CodeWord) : Bool :=
  c.bits.toNat < 2 ^ c.format.width

/-- The place an instruction's code word is found in. -/
def Instr.format : Instr → Format
  | .filtNone | .filtSub | .filtUp | .filtAvg | .filtPaeth => .filter
  | .nop | .start | .convertRgba8 | .convertRgba16 | .release => .command
  | .modeGray1 | .modeGray2 | .modeGray4 | .modeGray8 | .modeGray16
  | .modeRgb8 | .modeRgb16 | .modeIdx1 | .modeIdx2 | .modeIdx4 | .modeIdx8
  | .modeGa8 | .modeGa16 | .modeRgba8 | .modeRgba16 => .mode

/-- An instruction carries no operand (R101), so there is nothing in one that could be ill formed. -/
def Instr.wellFormed : Instr → Bool
  | .filtNone | .filtSub | .filtUp | .filtAvg | .filtPaeth => true
  | .nop | .start | .convertRgba8 | .convertRgba16 | .release => true
  | .modeGray1 | .modeGray2 | .modeGray4 | .modeGray8 | .modeGray16 => true
  | .modeRgb8 | .modeRgb16 | .modeIdx1 | .modeIdx2 | .modeIdx4 | .modeIdx8 => true
  | .modeGa8 | .modeGa16 | .modeRgba8 | .modeRgba16 => true

end Sys2Proof
end

