-- ==== Sys2Proof/Decode.lean ====
section
/-! DEFINITION. The decoder, total on any code word and rejecting by name, and after it the encoder; both read the opcode
table's rows. -/

namespace Sys2Proof

/-- One row of the opcode table: the bits it fixes (mask) and their value (pattern). -/
structure OpcodeRow where
  mask : Word
  pattern : Word
  instr : Instr
  deriving DecidableEq, Repr

/-- `30_encoding.md` R91: matched in full. -/
def filterRows : List OpcodeRow :=
  [⟨0xFF, 0x00, .filtNone⟩, ⟨0xFF, 0x01, .filtSub⟩, ⟨0xFF, 0x02, .filtUp⟩, ⟨0xFF, 0x03, .filtAvg⟩,
   ⟨0xFF, 0x04, .filtPaeth⟩]

/-- `30_encoding.md` R98: bits [31:8] are ignored. -/
def commandRows : List OpcodeRow :=
  [⟨0xFF, 0x00, .nop⟩, ⟨0xFF, 0x01, .start⟩, ⟨0xFF, 0x02, .convertRgba8⟩, ⟨0xFF, 0x03, .convertRgba16⟩,
   ⟨0xFF, 0x04, .release⟩]

/-- `30_encoding.md` R102, the grey and truecolour keys. -/
def greyAndColourRows : List OpcodeRow :=
  [⟨0xFFFF, 0x0001, .modeGray1⟩, ⟨0xFFFF, 0x0002, .modeGray2⟩, ⟨0xFFFF, 0x0004, .modeGray4⟩,
   ⟨0xFFFF, 0x0008, .modeGray8⟩, ⟨0xFFFF, 0x0010, .modeGray16⟩,
   ⟨0xFFFF, 0x0208, .modeRgb8⟩, ⟨0xFFFF, 0x0210, .modeRgb16⟩]

/-- `30_encoding.md` R102, the indexed keys and the keys with an alpha channel. -/
def indexedAndAlphaRows : List OpcodeRow :=
  [⟨0xFFFF, 0x0301, .modeIdx1⟩, ⟨0xFFFF, 0x0302, .modeIdx2⟩, ⟨0xFFFF, 0x0304, .modeIdx4⟩, ⟨0xFFFF, 0x0308, .modeIdx8⟩,
   ⟨0xFFFF, 0x0408, .modeGa8⟩, ⟨0xFFFF, 0x0410, .modeGa16⟩,
   ⟨0xFFFF, 0x0608, .modeRgba8⟩, ⟨0xFFFF, 0x0610, .modeRgba16⟩]

/-- The rows of one format. -/
def opcodeRows : Format → List OpcodeRow
  | .filter => filterRows
  | .command => commandRows
  | .mode => greyAndColourRows ++ indexedAndAlphaRows

/-- The row matches the bits. -/
def rowMatches (bits : Word) (r : OpcodeRow) : Bool :=
  bits &&& r.mask == r.pattern

/-- Why a code word is no instruction. -/
inductive DecodeReject where
  /-- The bits do not fit the format's width. -/
  | tooWide
  /-- Selector 0x05 to 0xFF (`30_encoding.md` R92). -/
  | illegalSelector
  /-- Opcode 0x05 to 0xFF (R99). -/
  | undefinedOpcode
  /-- A pair outside the compatibility table (R94). -/
  | illegalModeKey
  deriving DecidableEq, Repr

/-- The name a word of the format is rejected by. -/
def rejectOf : Format → DecodeReject
  | .filter => .illegalSelector
  | .command => .undefinedOpcode
  | .mode => .illegalModeKey

/-- The decoder. -/
def decode (c : CodeWord) : Except DecodeReject Instr :=
  if c.wellFormed then
    match (opcodeRows c.format).find? (rowMatches c.bits) with
    | some r => .ok r.instr
    | none => .error (rejectOf c.format)
  else .error .tooWide

/-- The selector that heads a row record (R91, R92). -/
def decodeSelector (ft : Byte) : Except DecodeReject Instr :=
  decode ⟨.filter, ft.setWidth 32⟩

/-- The value written to CMD (R98, R99). -/
def decodeCommand (value : Word) : Except DecodeReject Instr :=
  decode ⟨.command, value⟩

/-- The mode key COLOR_TYPE × 256 + BIT_DEPTH (R102). -/
def decodeMode (colorType bitDepth : Byte) : Except DecodeReject Instr :=
  decode ⟨.mode, (colorType ++ bitDepth).setWidth 32⟩

/-- The bits that stand for an instruction: those the table fixes, the others zero. -/
def encodeBits : Instr → Word
  | .filtNone => 0x00 | .filtSub => 0x01 | .filtUp => 0x02 | .filtAvg => 0x03 | .filtPaeth => 0x04
  | .nop => 0x00 | .start => 0x01 | .convertRgba8 => 0x02 | .convertRgba16 => 0x03 | .release => 0x04
  | .modeGray1 => 0x0001 | .modeGray2 => 0x0002 | .modeGray4 => 0x0004 | .modeGray8 => 0x0008 | .modeGray16 => 0x0010
  | .modeRgb8 => 0x0208 | .modeRgb16 => 0x0210
  | .modeIdx1 => 0x0301 | .modeIdx2 => 0x0302 | .modeIdx4 => 0x0304 | .modeIdx8 => 0x0308
  | .modeGa8 => 0x0408 | .modeGa16 => 0x0410
  | .modeRgba8 => 0x0608 | .modeRgba16 => 0x0610

/-- The encoder. -/
def encode (i : Instr) : CodeWord :=
  ⟨i.format, encodeBits i⟩

/-- Where a table word of `nbits` bits belongs: a selector has one byte, a mode key two, a command the four of its register
(log entry 15). -/
def tableFormat (nbits : Nat) : Format :=
  if nbits ≤ 8 then .filter else if nbits ≤ 16 then .mode else .command

/-- The instruction the decoder reads from a word numbered as spec/opcode_table.json numbers it. -/
def decodeTableWord (nbits w : Nat) : Option Instr :=
  match decode ⟨tableFormat nbits, BitVec.ofNat 32 w⟩ with
  | .ok i => some i
  | .error _ => none

end Sys2Proof
end

