-- ==== Sys2Proof/Config.lean ====
section
/-! DEFINITION. What an implementation fixes, and the values the spec leaves open. No constant here has a body: nothing can
be proved of one beyond what its type says. -/

namespace Sys2Proof.Config

/-! ## The storage of one implementation (`00_scope.md` R8, log entry 1)
Each parameter is a least value, which R8 gives, plus an unknown amount. -/

/-- MAX_IN_BYTES less its least value 2. -/
opaque inBytesAboveLeast : Nat

/-- MAX_PIXELS less its least value 1. -/
opaque pixelsAboveLeast : Nat

/-- MAX_ROW_BYTES less its least value 1. -/
opaque rowBytesAboveLeast : Nat

/-! ## Free values (`93_implementation_defined.md` U1 to U8, log entry 2)
The first argument is the state's tick, which every step advances, so that no law binds two draws; the others say which
unit is read. -/

/-- IN byte `index`. -/
opaque freeIn (tick index : Nat) : Byte

/-- Channel `ch` of PLTE entry `index`, drawn for raster element `user`. -/
opaque freePlte (tick user index ch : Nat) : Byte

/-- TRNS byte `index`, drawn for raster element `user`. -/
opaque freeTrns (tick user index : Nat) : Byte

/-- CUR byte `index`. -/
opaque freeCur (tick index : Nat) : Byte

/-- PRIOR byte `index`. -/
opaque freePrior (tick index : Nat) : Byte

/-- Channel `ch` of OUT element `pix`. -/
opaque freeOut (tick pix ch : Nat) : Half

/-- Channel `ch` of CONV element `pix`. -/
opaque freeConv (tick pix ch : Nat) : Half

end Sys2Proof.Config
end

