-- ==== Sys2Proof/Machine/State.lean ====
section
/-! DEFINITION. The state of the PDE as plain data, why a step can stop, and the state after reset. -/

namespace Sys2Proof.Machine

/-! ## What the fields hold -/

/-- The pass-walk state (`41_adam7.md` R160). -/
inductive Fsm where
  | idle | awaitingRow | unfilteringRow | rowComplete | passComplete | done | error
  deriving DecidableEq, Repr

/-- The raster kinds in the order of their codes (`30_encoding.md` R97). -/
inductive RasterKind where
  | gray8 | gray16 | rgb8 | rgb16 | ga8 | ga16 | rgba8 | rgba16
  deriving DecidableEq, Repr

/-- STATUS.CMD_RESULT (`30_encoding.md` R100). -/
inductive CmdResult where
  | accepted | refusedState | refusedAdapter | undefined
  deriving DecidableEq, Repr

/-- The decode errors the PDE raises (`60_exceptions.md` R291). -/
inductive DecodeError where
  | missingPalette | invalidHeader | invalidPalette | decompressionError | invalidFilterType | paletteIndexError
  | capacityError
  deriving DecidableEq, Repr

/-- A palette entry (`10_state.md` R44). -/
structure Rgb where
  r : Byte
  g : Byte
  b : Byte
  deriving DecidableEq, Repr

/-- A CONV element (`20_memory.md` R74); an 8-bit channel is held zero-extended. -/
structure Rgba where
  r : Half
  g : Half
  b : Half
  a : Half
  deriving DecidableEq, Repr

/-- The storage of the implementation (`00_scope.md` R8). No step changes it. -/
structure Capacity where
  /-- MAX_IN_BYTES. -/
  inBytes : Nat
  /-- MAX_PIXELS. -/
  pixels : Nat
  /-- MAX_ROW_BYTES. -/
  rowBytes : Nat
  deriving DecidableEq, Repr

/-- The configuration registers by field (`10_state.md` R29 to R34). Reserved bits have no storage. -/
structure CfgRegs where
  width : Word
  height : Word
  bitDepth : Byte
  colorType : Byte
  interlace : Byte
  plteCount : BitVec 9
  plteValid : Bool
  trnsCount : BitVec 9
  trnsValid : Bool
  inLen : Word
  deriving DecidableEq, Repr

/-- The run registers RUN_W to RUN_BPP (`10_state.md` R41). -/
structure RunRegs where
  w : Word
  h : Word
  bd : Byte
  ct : Byte
  il : Byte
  kind : RasterKind
  pbits : Nat
  bpp : Nat
  deriving DecidableEq, Repr

/-- The engine's position, FSM apart (`10_state.md` R40, R43). -/
structure Position where
  pass : BitVec 3
  lrow : Word
  lbyte : Word
  inPtr : Word
  ftype : BitVec 3
  hasPrior : Bool
  deriving DecidableEq, Repr

/-- The geometry registers of the current pass (`10_state.md` R42). -/
structure GeoRegs where
  sx : Nat
  sy : Nat
  dx : Nat
  dy : Nat
  pcols : Word
  prows : Word
  rb : Nat
  deriving DecidableEq, Repr

/-- A sample on its way to the colour demultiplexer: the arguments of Assemble (`42_unpack.md` R195). -/
structure Sample where
  pix : Nat
  ch : Fin 4
  v : Half
  deriving DecidableEq, Repr

/-- One host access (`20_memory.md` R70, R79). Writing CMD is a write to REG at offset 0. -/
inductive HostAction where
  | writeReg (offset : Nat) (value : Word)
  | readReg (offset : Nat)
  | writeIn (index : Nat) (value : Byte)
  | readIn (index : Nat)
  | writePlte (index : Nat) (entry : Rgb)
  | readPlte (index : Nat)
  | writeTrns (index : Nat) (value : Byte)
  | readTrns (index : Nat)
  | writeOut (pix : Nat) (channels : List Half)
  | readOut (pix : Nat)
  | writeConv (pix : Nat) (element : Rgba)
  | readConv (pix : Nat)
  deriving DecidableEq, Repr

/-- What happens next: an engine step, a host access or reset (`00_scope.md` R5, `70_reset_and_hazards.md` R320). -/
inductive Event where
  | engine
  | host (action : HostAction)
  | reset
  deriving DecidableEq, Repr

/-- What a host read returned. -/
inductive ReadValue where
  | register (value : Word)
  | byte (value : Byte)
  | entry (value : Rgb)
  | element (channels : List Half)
  | converted (value : Rgba)
  deriving DecidableEq, Repr

/-! ## Why a step can stop -/

/-- States the spec says are never reached: the machine stops in them (safe: nothing is proved of what would follow). -/
inductive Fault where
  /-- The engine would read IN at an index ≥ MAX_IN_BYTES. Raised by a filter instruction's data byte and by the fetch of
  a selector. Safe. -/
  | inputOverrun
  /-- The engine would use a row byte at an index ≥ MAX_ROW_BYTES. Raised by a filter instruction's data byte. Safe. -/
  | rowOverrun
  /-- A raster element ≥ MAX_PIXELS would be written. Raised by a mode and by the two conversions. Safe. -/
  | rasterOverrun
  /-- UnfilteringRow with FTYPE above 4 (`40_defilter.md` R120 says it cannot be). Raised by step. Safe. -/
  | illegalFilterType
  /-- UnfilteringRow with a mode key outside R102 (`43_color_demux.md` R234 says it cannot be). Raised by step. Safe. -/
  | illegalModeKey
  /-- A conversion of a raster whose kind its adapter does not take (`44_commands.md` §5 says it cannot be). Raised by
  the two conversions. Safe. -/
  | illegalRasterKind
  deriving DecidableEq, Repr

/-- Why an instruction has no meaning here. -/
inductive Refusal where
  /-- The instruction has no meaning yet. No arm of exec answers so. Safe. -/
  | notModelled (mnemonic : String)
  deriving DecidableEq, Repr

/-! ## The state -/

/-- The machine. A memory lists the units that something has set, by rising index; an unlisted unit is unspecified and reads
as a free value (log entries 2 and 3). -/
structure State where
  /-- MAX_IN_BYTES, MAX_PIXELS, MAX_ROW_BYTES (`00_scope.md` R8). -/
  caps : Capacity
  /-- The pass-walk state (`10_state.md` R40). -/
  fsm : Fsm
  /-- STATUS.ERR_CODE (R25). -/
  errCode : Byte
  /-- STATUS.CMD_RESULT (R26). -/
  cmdResult : CmdResult
  /-- STATUS.BUSYWR (R27). -/
  busyWr : Bool
  /-- STATUS.CONV_VALID (R28). -/
  convValid : Bool
  /-- STATUS.CONV_FMT (R28): true is RGBA16. -/
  convFmt : Bool
  /-- The configuration registers (R29 to R34). -/
  cfg : CfgRegs
  /-- The run registers (R41). -/
  run : RunRegs
  /-- The geometry registers (R42). -/
  geo : GeoRegs
  /-- The position (R40, R43). -/
  pos : Position
  /-- IN (R46). -/
  inMem : List Host.Cell
  /-- PLTE (R44). -/
  plte : List (Nat × Rgb)
  /-- TRNS (R45). -/
  trns : List (Nat × Byte)
  /-- CUR (R43). -/
  cur : List (Nat × Byte)
  /-- PRIOR (R43). -/
  prior : List (Nat × Byte)
  /-- OUT (R46) by channel: channel `ch` of element `pix` stands at `4 × pix + ch`; an 8-bit channel is held zero-extended
  (log entry 13). -/
  out : List (Nat × Half)
  /-- CONV (R46). -/
  conv : List (Nat × Rgba)
  /-- The model's own: samples between the unpacker and the demultiplexer, within one engine step (log entry 7). -/
  samples : List Sample
  /-- The model's own: the events still to come; when none is left the engine goes on alone (log entry 4). -/
  agenda : List Event
  /-- The model's own: what the last host read returned (log entry 6). -/
  lastRead : Option ReadValue
  /-- The model's own: the counter free values are drawn by (log entry 2). -/
  tick : Nat
  deriving DecidableEq, Repr

/-! ## Reset (`10_state.md` R48) -/

/-- The implementation's storage. -/
def configuredCapacity : Capacity :=
  { inBytes := Config.inBytesAboveLeast + 2
    pixels := Config.pixelsAboveLeast + 1
    rowBytes := Config.rowBytesAboveLeast + 1 }

/-- All configuration fields 0. -/
def CfgRegs.zero : CfgRegs :=
  { width := 0, height := 0, bitDepth := 0, colorType := 0, interlace := 0, plteCount := 0, plteValid := false,
    trnsCount := 0, trnsValid := false, inLen := 0 }

/-- All run registers 0; kind code 0 is GRAY8. -/
def RunRegs.zero : RunRegs :=
  { w := 0, h := 0, bd := 0, ct := 0, il := 0, kind := .gray8, pbits := 0, bpp := 0 }

/-- The position 0. -/
def Position.zero : Position :=
  { pass := 0, lrow := 0, lbyte := 0, inPtr := 0, ftype := 0, hasPrior := false }

/-- All geometry registers 0. -/
def GeoRegs.zero : GeoRegs :=
  { sx := 0, sy := 0, dx := 0, dy := 0, pcols := 0, prows := 0, rb := 0 }

/-- The state after reset of an implementation with the given storage. -/
def State.resetWith (caps : Capacity) : State :=
  { caps := caps, fsm := .idle, errCode := 0, cmdResult := .accepted, busyWr := false, convValid := false, convFmt := false,
    cfg := CfgRegs.zero, run := RunRegs.zero, geo := GeoRegs.zero, pos := Position.zero, inMem := [], plte := [], trns := [],
    cur := [], prior := [], out := [], conv := [], samples := [], agenda := [], lastRead := none, tick := 0 }

/-- The machine right after reset. -/
def State.reset : State :=
  State.resetWith configuredCapacity

end Sys2Proof.Machine
end

