-- ==== Sys2Proof/Machine/Operands.lean ====
section
/-! DEFINITION. What the instructions work on, as functions of the formats and sizes alone: channels, pixel sizes, raster
kinds, the compatibility table, the Adam7 geometry and the expected size. -/

namespace Sys2Proof.Machine

/-- Ceiling division, for b > 0 (`00_scope.md` §5). -/
def cdiv (a b : Nat) : Nat :=
  (a + b - 1) / b

/-! ## Formats -/

/-- The channel count of a COLOR_TYPE (`30_encoding.md` R93); an illegal code has none. -/
def channels (ct : Byte) : Nat :=
  match ct.toNat with
  | 0 => 1
  | 2 => 3
  | 3 => 1
  | 4 => 2
  | 6 => 4
  | _ => 0

/-- pixel_bits (`30_encoding.md` R96). -/
def pixelBits (ct bd : Byte) : Nat :=
  channels ct * bd.toNat

/-- pixel_byte_size (R96). -/
def bytesPerPixel (pixelBits : Nat) : Nat :=
  max 1 (pixelBits / 8)

/-- The bit depths a COLOR_TYPE permits (`30_encoding.md` R94). -/
def permittedDepths (ct : Byte) : List Nat :=
  match ct.toNat with
  | 0 => [1, 2, 4, 8, 16]
  | 2 => [8, 16]
  | 3 => [1, 2, 4, 8]
  | 4 => [8, 16]
  | 6 => [8, 16]
  | _ => []

/-- Legal(CT, BD) (R94). -/
def legalFormat (ct bd : Byte) : Bool :=
  (permittedDepths ct).contains bd.toNat

/-- INTERLACE is 0 or 1 (R95). -/
def legalInterlace (il : Byte) : Bool :=
  il.toNat ≤ 1

/-! ## Raster kinds -/

/-- The code of a kind (`30_encoding.md` R97). -/
def RasterKind.code : RasterKind → BitVec 3
  | .gray8 => 0 | .gray16 => 1 | .rgb8 => 2 | .rgb16 => 3 | .ga8 => 4 | .ga16 => 5 | .rgba8 => 6 | .rgba16 => 7

/-- The channel count of a kind (R97). -/
def RasterKind.channelCount : RasterKind → Nat
  | .gray8 | .gray16 => 1
  | .ga8 | .ga16 => 2
  | .rgb8 | .rgb16 => 3
  | .rgba8 | .rgba16 => 4

/-- The channel width of a kind (R97). -/
def RasterKind.channelWidth : RasterKind → Nat
  | .gray8 | .rgb8 | .ga8 | .rgba8 => 8
  | .gray16 | .rgb16 | .ga16 | .rgba16 => 16

/-- The kind START selects (`43_color_demux.md` R210). An illegal COLOR_TYPE selects none; START has refused it by then. -/
def selectKind (ct bd : Byte) (trnsValid : Bool) : RasterKind :=
  let deep := 16 ≤ bd.toNat
  match ct.toNat with
  | 0 => if deep then .gray16 else .gray8
  | 2 => if deep then .rgb16 else .rgb8
  | 3 => if trnsValid then .rgba8 else .rgb8
  | 4 => if deep then .ga16 else .ga8
  | 6 => if deep then .rgba16 else .rgba8
  | _ => .gray8

/-! ## Pass geometry -/

/-- Start and step of a pass. -/
structure PassGeometry where
  sx : Nat
  sy : Nat
  dx : Nat
  dy : Nat
  deriving DecidableEq, Repr

/-- The Adam7 table (`41_adam7.md` R150); pass 0 is the single implicit pass of a non-interlaced image (R151). -/
def passGeometry : Nat → PassGeometry
  | 1 => ⟨0, 0, 8, 8⟩
  | 2 => ⟨4, 0, 8, 8⟩
  | 3 => ⟨0, 4, 4, 8⟩
  | 4 => ⟨2, 0, 4, 4⟩
  | 5 => ⟨0, 2, 2, 4⟩
  | 6 => ⟨1, 0, 2, 2⟩
  | 7 => ⟨0, 1, 1, 2⟩
  | _ => ⟨0, 0, 1, 1⟩

/-- PassCols (R152). -/
def passCols (q w : Nat) : Nat :=
  if w > (passGeometry q).sx then cdiv (w - (passGeometry q).sx) (passGeometry q).dx else 0

/-- PassRows (R153). -/
def passRows (q h : Nat) : Nat :=
  if h > (passGeometry q).sy then cdiv (h - (passGeometry q).sy) (passGeometry q).dy else 0

/-- The pass is not empty (R154). -/
def passNonEmpty (q w h : Nat) : Bool :=
  0 < passCols q w && 0 < passRows q h

/-- RowBytes (R155). -/
def rowBytes (q w pbits : Nat) : Nat :=
  cdiv (passCols q w * pbits) 8

/-- The bytes of a pass in IN: PassRows records of 1 + RowBytes bytes each, none when the pass is empty (R154, R156). -/
def passBytes (q w h pbits : Nat) : Nat :=
  if passNonEmpty q w h then passRows q h * (1 + rowBytes q w pbits) else 0

/-- The pass indices above `q`, in increasing order. -/
def laterPasses (q : Nat) : List Nat :=
  [1, 2, 3, 4, 5, 6, 7].filter (q < ·)

/-- The passes of an image: pass 0 alone when INTERLACE is 0, else 1 to 7. -/
def imagePasses (il : Byte) : List Nat :=
  if il = 0 then [0] else laterPasses 0

/-- The first pass of the walk (R171). -/
def firstPass (il : Byte) (w h : Nat) : Nat :=
  ((imagePasses il).find? (passNonEmpty · w h)).getD 0

/-- The least non-empty pass after `q`, if any (R165). -/
def nextPass (q w h : Nat) : Option Nat :=
  (laterPasses q).find? (passNonEmpty · w h)

/-- ExpectedSize (R156). -/
def expectedSize (w h : Nat) (ct bd il : Byte) : Nat :=
  if il = 0 then h * (1 + cdiv (w * pixelBits ct bd) 8)
  else ((laterPasses 0).map (passBytes · w h (pixelBits ct bd))).sum

/-- The final column of local column `lx` (R157). -/
def finalX (sx dx lx : Nat) : Nat :=
  sx + lx * dx

/-- The final row of local row `ly` (R157). -/
def finalY (sy dy ly : Nat) : Nat :=
  sy + ly * dy

/-- The raster element at a final position (`20_memory.md` R73). -/
def pixelIndex (w fx fy : Nat) : Nat :=
  fy * w + fx

end Sys2Proof.Machine
end

