-- ==== Sys2Proof/Machine/Ops.lean ====
section
/-! DEFINITION. The named operations over memories and registers, error entry (the PDE's exceptions) and what leaves it. -/

namespace Sys2Proof.Machine

/-- What a step or a meaning answers. -/
abbrev Result := Host.Outcome State Fault Refusal

/-- Go on from a next state; a stop stays. -/
def andThen (r : Result) (f : State → Result) : Result :=
  match r with
  | .next s => f s
  | .fault e => .fault e
  | .refused e => .refused e

/-! ## Memories as lists of (index, value), rising by index -/

/-- What has been set at an index, if anything. -/
def cellGet {α : Type} : List (Nat × α) → Nat → Option α
  | [], _ => none
  | (k, v) :: m, a => if k = a then some v else cellGet m a

/-- Set one unit, keeping the list rising. -/
def cellSet {α : Type} : List (Nat × α) → Nat → α → List (Nat × α)
  | [], a, v => [(a, v)]
  | (k, w) :: m, a, v =>
    if a < k then (a, v) :: (k, w) :: m
    else if a = k then (a, v) :: m
    else (k, w) :: cellSet m a v

/-- Copy the units below `n` of `src` over those of `dst`; what is unspecified in `src` becomes so in `dst`. -/
def cellsCopyBelow {α : Type} (n : Nat) (src dst : List (Nat × α)) : List (Nat × α) :=
  src.filter (fun c => c.1 < n) ++ dst.filter (fun c => n ≤ c.1)

/-- The canonical form: indices strictly rising and below the memory's size. An unlisted unit is unspecified, so no entry can
equal what it reads as. -/
abbrev cellsWf {α : Type} (size : Nat) (m : List (Nat × α)) : Prop :=
  m.Pairwise (fun x y => x.1 < y.1) ∧ ∀ c ∈ m, c.1 < size

/-- Every memory has the canonical form. -/
abbrev Memory.wf (s : State) : Prop :=
  cellsWf s.caps.inBytes s.inMem ∧ cellsWf 256 s.plte ∧ cellsWf 256 s.trns ∧
  cellsWf s.caps.rowBytes s.cur ∧ cellsWf s.caps.rowBytes s.prior ∧
  cellsWf (4 * s.caps.pixels) s.out ∧ cellsWf s.caps.pixels s.conv

/-! ## Reads of one unit (`93_implementation_defined.md` U1 to U7) -/

/-- MemRead(IN, k, 1) (`20_memory.md` R72). -/
def State.inByte (s : State) (k : Nat) : Byte :=
  (cellGet s.inMem k).getD (Config.freeIn s.tick k)

/-- The byte the engine reads at IN_PTR; none outside IN. -/
def State.fetchByte (s : State) : Option Byte :=
  if s.pos.inPtr.toNat < s.caps.inBytes then some (s.inByte s.pos.inPtr.toNat) else none

/-- CUR[i] (`10_state.md` R43). -/
def State.curByte (s : State) (i : Nat) : Byte :=
  (cellGet s.cur i).getD (Config.freeCur s.tick i)

/-- PRIOR[i] (R43). -/
def State.priorByte (s : State) (i : Nat) : Byte :=
  (cellGet s.prior i).getD (Config.freePrior s.tick i)

/-- PLTE[j], read for raster element `user` (`20_memory.md` R75). -/
def State.plteEntry (s : State) (user j : Nat) : Rgb :=
  (cellGet s.plte j).getD
    ⟨Config.freePlte s.tick user j 0, Config.freePlte s.tick user j 1, Config.freePlte s.tick user j 2⟩

/-- TRNS[j], read for raster element `user` (R76). -/
def State.trnsByte (s : State) (user j : Nat) : Byte :=
  (cellGet s.trns j).getD (Config.freeTrns s.tick user j)

/-- Where channel `ch` of raster element `pix` stands in State.out. -/
def outSlot (pix : Nat) (ch : Fin 4) : Nat :=
  4 * pix + ch.val

/-- A drawn channel of a kind: an 8-bit channel holds 0 to 255 (`43_color_demux.md` R211). -/
def drawnChannel (width : Nat) (v : Half) : Half :=
  if width = 8 then (v.setWidth 8).setWidth 16 else v

/-- Channel `ch` of OUT[pix] (R73). -/
def State.outChannel (s : State) (pix : Nat) (ch : Fin 4) : Half :=
  (cellGet s.out (outSlot pix ch)).getD (drawnChannel s.run.kind.channelWidth (Config.freeOut s.tick pix ch.val))

/-! ## Writes of OUT -/

/-- OutWrite(pix, ch, v) for each of the given channels in turn. -/
def outWrites (out : List (Nat × Half)) (pix : Nat) : List (Fin 4 × Half) → List (Nat × Half)
  | [] => out
  | (ch, v) :: ws => outWrites (cellSet out (outSlot pix ch) v) pix ws

/-! ## Status -/

/-- STATUS.STATE is BUSY (`10_state.md` R24). -/
def State.busy (s : State) : Bool :=
  match s.fsm with
  | .awaitingRow | .unfilteringRow | .rowComplete | .passComplete => true
  | .idle | .done | .error => false

/-- RUN_W × RUN_H: the number of elements of the current raster. -/
def State.pixelCount (s : State) : Nat :=
  s.run.w.toNat * s.run.h.toNat

/-! ## Error entry and exit -/

/-- The code of an error (`60_exceptions.md` R291). -/
def DecodeError.code : DecodeError → Byte
  | .missingPalette => 5
  | .invalidHeader => 6
  | .invalidPalette => 7
  | .decompressionError => 9
  | .invalidFilterType => 10
  | .paletteIndexError => 11
  | .capacityError => 12

/-- raise DecodeError(e) (`60_exceptions.md` R298). OUT and CONV become unspecified, and so do CUR and PRIOR (R299); HAS_PRIOR
stays (DEDUCED, log entry 11). -/
def State.raise (s : State) (e : DecodeError) : State :=
  { s with
    fsm := .error, errCode := e.code, convValid := false, convFmt := false,
    out := [], conv := [], cur := [], prior := [], samples := [] }

/-- DropPreviousResult() (`44_commands.md` R252): what leaves the error state, and every other one, before a new decode. -/
def State.dropPreviousResult (s : State) : State :=
  { s with
    errCode := 0, busyWr := false, convValid := false, convFmt := false,
    run := RunRegs.zero, geo := GeoRegs.zero, pos := Position.zero, out := [], conv := [] }

/-- Reset (`70_reset_and_hazards.md` R320): the spec's state as after reset. The storage, the events still to come, the draw
counter and what the host has read are no part of it (log entry 17). -/
def State.hardReset (s : State) : State :=
  { State.resetWith s.caps with agenda := s.agenda, tick := s.tick, lastRead := s.lastRead }

/-- Take the next event off the agenda; every step draws from a tick of its own (log entry 2). -/
def State.beginStep (s : State) : State :=
  { s with agenda := s.agenda.tail, tick := s.tick + 1 }

end Sys2Proof.Machine
end

