-- ==== Sys2Proof/Machine/Walk.lean ====
section
/-! DEFINITION. The pass walk's transitions that run no instruction (`41_adam7.md` §4). -/

namespace Sys2Proof.Machine

/-- The geometry registers of pass `q` of a `w` × `h` image (R161). -/
def GeoRegs.ofPass (q w h pbits : Nat) : GeoRegs :=
  { sx := (passGeometry q).sx, sy := (passGeometry q).sy, dx := (passGeometry q).dx, dy := (passGeometry q).dy
    pcols := BitVec.ofNat 32 (passCols q w)
    prows := BitVec.ofNat 32 (passRows q h)
    rb := rowBytes q w pbits }

/-- EnterPass(q) (R161). -/
def State.enterPass (s : State) (q : Nat) : State :=
  { s with
    pos := { s.pos with pass := BitVec.ofNat 3 q, lrow := 0, lbyte := 0, hasPrior := false }
    geo := GeoRegs.ofPass q s.run.w.toNat s.run.h.toNat s.run.pbits }

/-- The decompressed buffer is exhausted: IN_PTR ≥ CFG_IN_LEN (R167). -/
def State.exhausted (s : State) : Bool :=
  s.cfg.inLen.toNat ≤ s.pos.inPtr.toNat

/-- Entering Done (R166). -/
def State.enterDone (s : State) : State :=
  { s with fsm := .done }

/-- AwaitingRow with a legal selector: latch it and begin the row (R162). -/
def State.takeSelector (s : State) (ftype : BitVec 3) : State :=
  { s with
    fsm := .unfilteringRow
    pos := { s.pos with ftype := ftype, inPtr := s.pos.inPtr + 1, lbyte := 0 } }

/-- AwaitingRow with an illegal selector (R162, `30_encoding.md` R92). The position stays: IN_PTR is at the selector, and LBYTE,
which R162 clears only after the check, keeps its value (`60_exceptions.md` R298). -/
def State.rejectSelector (s : State) : State :=
  s.raise .invalidFilterType

/-- The end of an UnfilteringRow step whose samples raised nothing (R163). After an error the position stays (R299). -/
def State.finishByte (s : State) : State :=
  if s.fsm = .unfilteringRow then
    { s with
      fsm := if s.pos.lbyte.toNat + 1 = s.geo.rb then .rowComplete else .unfilteringRow
      pos := { s.pos with inPtr := s.pos.inPtr + 1, lbyte := s.pos.lbyte + 1 } }
  else s

/-- RowComplete (R164). -/
def State.completeRow (s : State) : State :=
  { s with
    fsm := if s.pos.lrow.toNat + 1 < s.geo.prows.toNat then .awaitingRow else .passComplete
    prior := cellsCopyBelow s.geo.rb s.cur s.prior
    pos := { s.pos with hasPrior := true, lrow := s.pos.lrow + 1 } }

/-- PassComplete (R165). -/
def State.completePass (s : State) : State :=
  if s.run.il = 0 then s.enterDone
  else
    match nextPass s.pos.pass.toNat s.run.w.toNat s.run.h.toNat with
    | none => s.enterDone
    | some q => { s.enterPass q with fsm := .awaitingRow }

end Sys2Proof.Machine
end

