-- ==== Sys2Proof/Machine/Commands.lean ====
section
/-! DEFINITION. The host commands (`44_commands.md`), the START checks (`60_exceptions.md` §2) and the RGBA adapters. -/

namespace Sys2Proof.Machine

/-! ## The START checks -/

/-- The header checks hold (`60_exceptions.md` R293). -/
def CfgRegs.headerOk (c : CfgRegs) : Bool :=
  c.width.toNat ≠ 0 && c.height.toNat ≠ 0 && legalInterlace c.interlace && legalFormat c.colorType c.bitDepth

/-- ExpectedSize of the configuration (`41_adam7.md` R156). -/
def CfgRegs.expectedSize (c : CfgRegs) : Nat :=
  Machine.expectedSize c.width.toNat c.height.toNat c.colorType c.bitDepth c.interlace

/-- COLOR_TYPE is 3. -/
def CfgRegs.indexed (c : CfgRegs) : Bool :=
  c.colorType == 3

/-- Every non-empty pass has rows that fit CUR and PRIOR (R296, its last point). -/
def CfgRegs.rowsFit (c : CfgRegs) (limit : Nat) : Bool :=
  (imagePasses c.interlace).all fun q =>
    !passNonEmpty q c.width.toNat c.height.toNat ||
      rowBytes q c.width.toNat (pixelBits c.colorType c.bitDepth) ≤ limit

/-- The storage holds the image (R296). -/
def CfgRegs.fits (c : CfgRegs) (caps : Capacity) : Bool :=
  c.expectedSize ≤ 2 ^ 32 - 1 && c.expectedSize ≤ caps.inBytes && c.width.toNat * c.height.toNat ≤ caps.pixels &&
    c.rowsFit caps.rowBytes

/-- The first check that fails, in the order of `44_commands.md` R253. -/
def CfgRegs.startError (c : CfgRegs) (caps : Capacity) : Option DecodeError :=
  if !c.headerOk then some .invalidHeader
  else if c.indexed && !c.plteValid then some .missingPalette
  else if c.indexed && c.plteValid && 2 ^ c.bitDepth.toNat < c.plteCount.toNat then some .invalidPalette
  else if !c.fits caps then some .capacityError
  else if c.inLen.toNat ≠ c.expectedSize then some .decompressionError
  else none

/-! ## START and RELEASE -/

/-- The run registers LatchRun() loads (`44_commands.md` R254). -/
def CfgRegs.latched (c : CfgRegs) : RunRegs :=
  { w := c.width, h := c.height, bd := c.bitDepth, ct := c.colorType, il := c.interlace
    kind := selectKind c.colorType c.bitDepth c.trnsValid
    pbits := pixelBits c.colorType c.bitDepth
    bpp := bytesPerPixel (pixelBits c.colorType c.bitDepth) }

/-- LatchRun() (R254). -/
def State.latchRun (s : State) : State :=
  { s with run := s.cfg.latched }

/-- BeginWalk() (R255). -/
def State.beginWalk (s : State) : State :=
  let s₁ := { s with pos := { s.pos with inPtr := 0 } }
  { s₁.enterPass (firstPass s.run.il s.run.w.toNat s.run.h.toNat) with fsm := .awaitingRow }

/-- The result of a command. -/
def State.withResult (s : State) (r : CmdResult) : State :=
  { s with cmdResult := r }

/-- NOP (R256). -/
def execNop (s : State) : Result :=
  .next (s.withResult .accepted)

/-- START (R251). -/
def execStart (s : State) : Result :=
  if s.busy then .next (s.withResult .refusedState)
  else
    let s₁ := (s.withResult .accepted).dropPreviousResult
    match s.cfg.startError s.caps with
    | some e => .next (s₁.raise e)
    | none => .next s₁.latchRun.beginWalk

/-- RELEASE (R267). -/
def execRelease (s : State) : Result :=
  if s.busy then .next (s.withResult .refusedState)
  else .next { s.dropPreviousResult with fsm := .idle, cmdResult := .accepted }

/-- An undefined opcode (R268). -/
def State.undefinedCommand (s : State) : State :=
  s.withResult .undefined

/-! ## The adapters (R259 to R266): an element, by channel, to RGBA -/

/-- GRAY8 (R259). -/
def adaptGray8 (e : Fin 4 → Half) : Rgba :=
  ⟨e 0, e 0, e 0, 255⟩

/-- GA8 (R260). -/
def adaptGa8 (e : Fin 4 → Half) : Rgba :=
  ⟨e 0, e 0, e 0, e 1⟩

/-- RGB8 (R261). -/
def adaptRgb8 (e : Fin 4 → Half) : Rgba :=
  ⟨e 0, e 1, e 2, 255⟩

/-- RGBA8 (R262). -/
def adaptRgba8 (e : Fin 4 → Half) : Rgba :=
  ⟨e 0, e 1, e 2, e 3⟩

/-- GRAY16 (R263). -/
def adaptGray16 (e : Fin 4 → Half) : Rgba :=
  ⟨e 0, e 0, e 0, 65535⟩

/-- GA16 (R264). -/
def adaptGa16 (e : Fin 4 → Half) : Rgba :=
  ⟨e 0, e 0, e 0, e 1⟩

/-- RGB16 (R265). -/
def adaptRgb16 (e : Fin 4 → Half) : Rgba :=
  ⟨e 0, e 1, e 2, 65535⟩

/-- RGBA16 (R266). -/
def adaptRgba16 (e : Fin 4 → Half) : Rgba :=
  ⟨e 0, e 1, e 2, e 3⟩

/-- Adapt8 by kind; the 16-bit kinds never reach it (§5). -/
def adapter8 : RasterKind → Option ((Fin 4 → Half) → Rgba)
  | .gray8 => some adaptGray8
  | .ga8 => some adaptGa8
  | .rgb8 => some adaptRgb8
  | .rgba8 => some adaptRgba8
  | .gray16 | .ga16 | .rgb16 | .rgba16 => none

/-- Adapt16 by kind; the 8-bit kinds never reach it (§5). -/
def adapter16 : RasterKind → Option ((Fin 4 → Half) → Rgba)
  | .gray16 => some adaptGray16
  | .ga16 => some adaptGa16
  | .rgb16 => some adaptRgb16
  | .rgba16 => some adaptRgba16
  | .gray8 | .ga8 | .rgb8 | .rgba8 => none

/-! ## The conversions -/

/-- CONV after a conversion: every element of the raster (R257, R258). -/
def State.convertedRaster (s : State) (adapt : (Fin 4 → Half) → Rgba) : List (Nat × Rgba) :=
  (List.range s.pixelCount).map fun pix => (pix, adapt (s.outChannel pix))

/-- The conversion proper, once its command is taken. -/
def convertRaster (adapter : Option ((Fin 4 → Half) → Rgba)) (format : Bool) (s : State) : Result :=
  if s.pixelCount ≤ s.caps.pixels then
    match adapter with
    | some adapt =>
      .next { s with conv := s.convertedRaster adapt, convFmt := format, convValid := true, cmdResult := .accepted }
    | none => .fault .illegalRasterKind
  else .fault .rasterOverrun

/-- A refused adapter: no conversion is valid afterwards (R257, R258). -/
def State.refuseAdapter (s : State) : State :=
  { s with cmdResult := .refusedAdapter, convValid := false, convFmt := false }

/-- CONVERT_RGBA8 (R257). -/
def execConvertRgba8 (s : State) : Result :=
  if s.fsm = .done then
    if 8 < s.run.bd.toNat then .next s.refuseAdapter else convertRaster (adapter8 s.run.kind) false s
  else .next (s.withResult .refusedState)

/-- CONVERT_RGBA16 (R258). -/
def execConvertRgba16 (s : State) : Result :=
  if s.fsm = .done then
    if s.run.bd.toNat ≤ 8 then .next s.refuseAdapter else convertRaster (adapter16 s.run.kind) true s
  else .next (s.withResult .refusedState)

end Sys2Proof.Machine
end

