-- ==== Sys2Proof/Machine/Unpack.lean ====
section
/-! DEFINITION. The bit unpacker (`42_unpack.md`): the samples of a reconstructed byte, with their raster elements and channels,
less those that lie outside the raster. -/

namespace Sys2Proof.Machine

/-- Sample `k` of a byte of samples of `bd` bits, most significant group first (R191). -/
def subByteSample (bd : Nat) (byte : Byte) (k : Nat) : Nat :=
  (byte.toNat >>> (8 - bd * (k + 1))) &&& (2 ^ bd - 1)

/-- EmitSample (R195): none when the sample is discarded (R197). -/
def State.placeSample (s : State) (index value : Nat) : Option Sample :=
  let lx := index / channels s.run.ct
  let fx := finalX s.geo.sx s.geo.dx lx
  let fy := finalY s.geo.sy s.geo.dy s.pos.lrow.toNat
  if fx < s.run.w.toNat ∧ fy < s.run.h.toNat then
    some ⟨pixelIndex s.run.w.toNat fx fy, Fin.ofNat 4 (index % channels s.run.ct), BitVec.ofNat 16 value⟩
  else none

/-- The samples byte `i` completes, as (index in the row, value), in the order they are emitted (R190 to R193, R196). -/
def State.rowSamples (s : State) (i : Nat) : List (Nat × Nat) :=
  let bd := s.run.bd.toNat
  if bd < 8 then
    (List.range (8 / bd)).map fun k => (i * (8 / bd) + k, subByteSample bd (s.curByte i) k)
  else if bd = 8 then [(i, (s.curByte i).toNat)]
  else if i % 2 = 1 then [(i / 2, (s.curByte (i - 1)).toNat * 256 + (s.curByte i).toNat)]
  else []

/-- Emit(i) (R195), up to the demultiplexer. -/
def State.emitted (s : State) (i : Nat) : List Sample :=
  (s.rowSamples i).filterMap fun c => s.placeSample c.1 c.2

end Sys2Proof.Machine
end

