-- ==== Sys2Proof/Machine/Filters.lean ====
section
/-! DEFINITION. Filter reversal (`40_defilter.md`): the five filter-type selectors. -/

namespace Sys2Proof.Machine

/-! ## References (R121 to R123) -/

/-- The left reference a (R121). -/
def State.leftRef (s : State) (i : Nat) : Byte :=
  if s.run.bpp ≤ i then s.curByte (i - s.run.bpp) else 0

/-- The up reference b (R122). -/
def State.upRef (s : State) (i : Nat) : Byte :=
  if s.pos.hasPrior then s.priorByte i else 0

/-- The up-left reference c (R123). -/
def State.upLeftRef (s : State) (i : Nat) : Byte :=
  if s.pos.hasPrior ∧ s.run.bpp ≤ i then s.priorByte (i - s.run.bpp) else 0

/-! ## The five reversals (R125 to R130) and their forward filters (R133) -/

/-- NONE (R125). -/
def reconNone (x _a _b _c : Byte) : Byte :=
  x

/-- SUB (R126). -/
def reconSub (x a _b _c : Byte) : Byte :=
  x + a

/-- UP (R127). -/
def reconUp (x _a b _c : Byte) : Byte :=
  x + b

/-- The mean of AVG: the sum has 9 bits (R128). -/
def average (a b : Byte) : Byte :=
  BitVec.ofNat 8 ((a.toNat + b.toNat) / 2)

/-- AVG (R128). -/
def reconAvg (x a b _c : Byte) : Byte :=
  x + average a b

/-- The Paeth predictor, over the integers (R129). -/
def paeth (a b c : Byte) : Byte :=
  let p : Int := (a.toNat : Int) + b.toNat - c.toNat
  let pa := (p - a.toNat).natAbs
  let pb := (p - b.toNat).natAbs
  let pc := (p - c.toNat).natAbs
  if pa ≤ pb ∧ pa ≤ pc then a else if pb ≤ pc then b else c

/-- PAETH (R130). -/
def reconPaeth (x a b c : Byte) : Byte :=
  x + paeth a b c

/-- The forward filter of a type (R133). -/
def forwardFilter (ftype : BitVec 3) (y a b c : Byte) : Byte :=
  match ftype.toNat with
  | 1 => y - a
  | 2 => y - b
  | 3 => y - average a b
  | 4 => y - paeth a b c
  | _ => y

/-- Recon(FTYPE, x, a, b, c) (R120). -/
def recon (ftype : BitVec 3) (x a b c : Byte) : Byte :=
  match ftype.toNat with
  | 1 => reconSub x a b c
  | 2 => reconUp x a b c
  | 3 => reconAvg x a b c
  | 4 => reconPaeth x a b c
  | _ => reconNone x a b c

/-! ## A selector at work -/

/-- One data byte of a row: reconstruct it into CUR and hand its samples on (R120, `41_adam7.md` R163). -/
def reconstructByte (reverse : Byte → Byte → Byte → Byte → Byte) (s : State) : Result :=
  match s.fetchByte with
  | none => .fault .inputOverrun
  | some x =>
    let i := s.pos.lbyte.toNat
    if i < s.caps.rowBytes then
      let y := reverse x (s.leftRef i) (s.upRef i) (s.upLeftRef i)
      let s₁ := { s with cur := cellSet s.cur i y }
      .next { s₁ with samples := s₁.emitted i }
    else .fault .rowOverrun

/-- A selector latches itself in AwaitingRow and reverses a byte in UnfilteringRow. In the other states the engine does no
filter work (`41_adam7.md` R160, log entry 8). -/
def runFilter (ftype : BitVec 3) (reverse : Byte → Byte → Byte → Byte → Byte) (s : State) : Result :=
  match s.fsm with
  | .awaitingRow => .next (s.takeSelector ftype)
  | .unfilteringRow => reconstructByte reverse s
  | .idle | .rowComplete | .passComplete | .done | .error => .next s

/-- NONE (R125). -/
def execFiltNone (s : State) : Result :=
  runFilter 0 reconNone s

/-- SUB (R126). -/
def execFiltSub (s : State) : Result :=
  runFilter 1 reconSub s

/-- UP (R127). -/
def execFiltUp (s : State) : Result :=
  runFilter 2 reconUp s

/-- AVG (R128). -/
def execFiltAvg (s : State) : Result :=
  runFilter 3 reconAvg s

/-- PAETH (R130). -/
def execFiltPaeth (s : State) : Result :=
  runFilter 4 reconPaeth s

end Sys2Proof.Machine
end

