-- ==== Sys2Proof/Machine/Modes.lean ====
section
/-! DEFINITION. The colour-type demultiplexer (`43_color_demux.md`): the 15 pixel-assembly modes. -/

namespace Sys2Proof.Machine

/-- Mult(bd) (R212). -/
def greyMultiplier (bd : Nat) : Nat :=
  255 / (2 ^ bd - 1)

/-- Scale(bd, v) (R212). -/
def scaleGrey (bd : Nat) (v : Half) : Half :=
  BitVec.ofNat 16 (v.toNat * greyMultiplier bd)

/-- What a mode writes for a sample: the channels of its element, or none when the sample names no palette entry (R215). -/
abbrev PixelRule := State → Sample → Option (List (Fin 4 × Half))

/-- Grey of 1, 2 or 4 bits (R218 to R220). -/
def scaledGrey (bd : Nat) : PixelRule := fun _ x =>
  some [(0, scaleGrey bd x.v)]

/-- Grey of 8 or 16 bits (R221, R222). -/
def wholeGrey : PixelRule := fun _ x =>
  some [(0, x.v)]

/-- A channel stored as it is (R223, R224, R230 to R233). -/
def wholeChannel : PixelRule := fun _ x =>
  some [(x.ch, x.v)]

/-- The alpha of palette index `v` (R216). -/
def State.indexedAlpha (s : State) (pix v : Nat) : Byte :=
  if v < s.cfg.trnsCount.toNat then s.trnsByte pix v else 255

/-- IndexedPixel(pix, v) (R229). -/
def indexedPixel : PixelRule := fun s x =>
  let v := x.v.toNat
  if v < s.cfg.plteCount.toNat then
    let e := s.plteEntry x.pix v
    let rgb : List (Fin 4 × Half) := [(0, e.r.setWidth 16), (1, e.g.setWidth 16), (2, e.b.setWidth 16)]
    some (if s.run.kind = .rgba8 then rgb ++ [(3, (s.indexedAlpha x.pix v).setWidth 16)] else rgb)
  else none

/-- Assemble each sample in turn; none as soon as one names no palette entry (`42_unpack.md` R196). -/
def assemble (rule : Sample → Option (List (Fin 4 × Half))) : List Sample → List (Nat × Half) → Option (List (Nat × Half))
  | [], out => some out
  | x :: xs, out =>
    match rule x with
    | some ws => assemble rule xs (outWrites out x.pix ws)
    | none => none

/-- A mode at work: assemble the samples handed on, or raise PaletteIndexError (R215). -/
def runMode (rule : PixelRule) (s : State) : Result :=
  if s.samples.all (fun x => x.pix < s.caps.pixels) then
    match assemble (rule s) s.samples s.out with
    | some out => .next { s with out := out, samples := [] }
    | none => .next (s.raise .paletteIndexError)
  else .fault .rasterOverrun

/-- GRAY1 (R218). -/
def execModeGray1 (s : State) : Result :=
  runMode (scaledGrey 1) s

/-- GRAY2 (R219). -/
def execModeGray2 (s : State) : Result :=
  runMode (scaledGrey 2) s

/-- GRAY4 (R220). -/
def execModeGray4 (s : State) : Result :=
  runMode (scaledGrey 4) s

/-- GRAY8 (R221). -/
def execModeGray8 (s : State) : Result :=
  runMode wholeGrey s

/-- GRAY16 (R222). -/
def execModeGray16 (s : State) : Result :=
  runMode wholeGrey s

/-- RGB8 (R223). -/
def execModeRgb8 (s : State) : Result :=
  runMode wholeChannel s

/-- RGB16 (R224). -/
def execModeRgb16 (s : State) : Result :=
  runMode wholeChannel s

/-- IDX1 (R225). -/
def execModeIdx1 (s : State) : Result :=
  runMode indexedPixel s

/-- IDX2 (R226). -/
def execModeIdx2 (s : State) : Result :=
  runMode indexedPixel s

/-- IDX4 (R227). -/
def execModeIdx4 (s : State) : Result :=
  runMode indexedPixel s

/-- IDX8 (R228). -/
def execModeIdx8 (s : State) : Result :=
  runMode indexedPixel s

/-- GA8 (R230). -/
def execModeGa8 (s : State) : Result :=
  runMode wholeChannel s

/-- GA16 (R231). -/
def execModeGa16 (s : State) : Result :=
  runMode wholeChannel s

/-- RGBA8 (R232). -/
def execModeRgba8 (s : State) : Result :=
  runMode wholeChannel s

/-- RGBA16 (R233). -/
def execModeRgba16 (s : State) : Result :=
  runMode wholeChannel s

end Sys2Proof.Machine
end

