-- ==== Sys2Proof/Machine/Dispatch.lean ====
section
/-! DEFINITION. One arm per instruction, each the direct call of its meaning. -/

namespace Sys2Proof.Machine

def exec (i : Instr) (s : State) : Host.Outcome State Fault Refusal :=
  match i with
  | .filtNone => Sys2Proof.Machine.execFiltNone s
  | .filtSub => Sys2Proof.Machine.execFiltSub s
  | .filtUp => Sys2Proof.Machine.execFiltUp s
  | .filtAvg => Sys2Proof.Machine.execFiltAvg s
  | .filtPaeth => Sys2Proof.Machine.execFiltPaeth s
  | .nop => Sys2Proof.Machine.execNop s
  | .start => Sys2Proof.Machine.execStart s
  | .convertRgba8 => Sys2Proof.Machine.execConvertRgba8 s
  | .convertRgba16 => Sys2Proof.Machine.execConvertRgba16 s
  | .release => Sys2Proof.Machine.execRelease s
  | .modeGray1 => Sys2Proof.Machine.execModeGray1 s
  | .modeGray2 => Sys2Proof.Machine.execModeGray2 s
  | .modeGray4 => Sys2Proof.Machine.execModeGray4 s
  | .modeGray8 => Sys2Proof.Machine.execModeGray8 s
  | .modeGray16 => Sys2Proof.Machine.execModeGray16 s
  | .modeRgb8 => Sys2Proof.Machine.execModeRgb8 s
  | .modeRgb16 => Sys2Proof.Machine.execModeRgb16 s
  | .modeIdx1 => Sys2Proof.Machine.execModeIdx1 s
  | .modeIdx2 => Sys2Proof.Machine.execModeIdx2 s
  | .modeIdx4 => Sys2Proof.Machine.execModeIdx4 s
  | .modeIdx8 => Sys2Proof.Machine.execModeIdx8 s
  | .modeGa8 => Sys2Proof.Machine.execModeGa8 s
  | .modeGa16 => Sys2Proof.Machine.execModeGa16 s
  | .modeRgba8 => Sys2Proof.Machine.execModeRgba8 s
  | .modeRgba16 => Sys2Proof.Machine.execModeRgba16 s

end Sys2Proof.Machine
end

