-- ==== Sys2Proof/Machine/Flags.lean ====
section
/-! DEFINITION. The status fields and the words they are read in. The PDE has no arithmetic flags (`10_state.md` R47). -/

namespace Sys2Proof.Machine

/-- STATUS.STATE (`10_state.md` R24). -/
def Fsm.stateCode : Fsm → BitVec 2
  | .idle => 0
  | .awaitingRow | .unfilteringRow | .rowComplete | .passComplete => 1
  | .done => 2
  | .error => 3

/-- DBG_POS.FSM (R38). -/
def Fsm.code : Fsm → BitVec 3
  | .idle => 0 | .awaitingRow => 1 | .unfilteringRow => 2 | .rowComplete => 3 | .passComplete => 4 | .done => 5 | .error => 6

/-- STATUS.CMD_RESULT (`30_encoding.md` R100). -/
def CmdResult.code : CmdResult → BitVec 2
  | .accepted => 0 | .refusedState => 1 | .refusedAdapter => 2 | .undefined => 3

/-- RASTER_INFO.VALID (R36). -/
def State.rasterValid (s : State) : Bool :=
  s.fsm == .done

/-- A one-bit field. -/
def flagBit (b : Bool) : BitVec 1 :=
  BitVec.ofBool b

/-- STATUS (R23). -/
def State.statusWord (s : State) : Word :=
  (0 : BitVec 5) ++ flagBit s.convFmt ++ flagBit s.convValid ++ flagBit s.busyWr ++ (0 : BitVec 6) ++ s.cmdResult.code ++
    s.errCode ++ (0 : BitVec 6) ++ s.fsm.stateCode

/-- RASTER_INFO (R36). -/
def State.rasterInfoWord (s : State) : Word :=
  s.run.ct ++ s.run.bd ++ (0 : BitVec 7) ++ flagBit s.rasterValid ++ (0 : BitVec 5) ++ s.run.kind.code

/-- DBG_POS (R38). -/
def State.dbgPosWord (s : State) : Word :=
  (0 : BitVec 19) ++ flagBit s.pos.hasPrior ++ (0 : BitVec 1) ++ s.pos.ftype ++ (0 : BitVec 1) ++ s.pos.pass ++ (0 : BitVec 1) ++
    s.fsm.code

/-- DBG_BYTE (R39): LBYTE, but after InvalidFilterType the row byte index that R299 of `60_exceptions.md` gives the position of
the bad selector, which is 0, whatever LBYTE keeps (DEDUCED, log entry 21). -/
def State.dbgByteWord (s : State) : Word :=
  if s.fsm = .error ∧ s.errCode = DecodeError.invalidFilterType.code then 0 else s.pos.lbyte

/-- CFG_FORMAT (R31). -/
def CfgRegs.formatWord (c : CfgRegs) : Word :=
  (0 : BitVec 8) ++ c.interlace ++ c.colorType ++ c.bitDepth

/-- A COUNT and VALID register: CFG_PLTE (R32) and CFG_TRNS (R33). -/
def countValidWord (count : BitVec 9) (valid : Bool) : Word :=
  (0 : BitVec 15) ++ flagBit valid ++ (0 : BitVec 7) ++ count

end Sys2Proof.Machine
end

