-- ==== Sys2Proof/Machine/HostPort.lean ====
section
/-! DEFINITION. Host accesses to the six spaces (`20_memory.md`), but for the effect of writing CMD. -/

namespace Sys2Proof.Machine

/-! ## REG (`10_state.md` R21) -/

/-- EXPECTED_SIZE (R35). -/
def CfgRegs.expectedSizeWord (c : CfgRegs) : Word :=
  if c.headerOk && c.expectedSize ≤ 2 ^ 32 - 1 then BitVec.ofNat 32 c.expectedSize else 0

/-- What a register reads as; a reserved or misaligned offset reads 0 (R21, `20_memory.md` R71). -/
def State.readReg (s : State) (offset : Nat) : Word :=
  match offset with
  | 0x00 => 0
  | 0x04 => s.statusWord
  | 0x08 => s.cfg.width
  | 0x0C => s.cfg.height
  | 0x10 => s.cfg.formatWord
  | 0x14 => countValidWord s.cfg.plteCount s.cfg.plteValid
  | 0x18 => countValidWord s.cfg.trnsCount s.cfg.trnsValid
  | 0x1C => s.cfg.inLen
  | 0x20 => s.cfg.expectedSizeWord
  | 0x24 => s.rasterInfoWord
  | 0x28 => s.run.w
  | 0x2C => s.run.h
  | 0x30 => s.dbgPosWord
  | 0x34 => s.pos.lrow
  | 0x38 => s.dbgByteWord
  | 0x3C => s.pos.inPtr
  | _ => 0

/-- The configuration registers after a write at an offset, if a configuration register stands there (R29 to R34). -/
def CfgRegs.written (c : CfgRegs) (offset : Nat) (v : Word) : Option CfgRegs :=
  match offset with
  | 0x08 => some { c with width := v }
  | 0x0C => some { c with height := v }
  | 0x10 =>
    some { c with bitDepth := v.extractLsb' 0 8, colorType := v.extractLsb' 8 8, interlace := v.extractLsb' 16 8 }
  | 0x14 => some { c with plteCount := v.extractLsb' 0 9, plteValid := v.getLsbD 16 }
  | 0x18 => some { c with trnsCount := v.extractLsb' 0 9, trnsValid := v.getLsbD 16 }
  | 0x1C => some { c with inLen := v }
  | _ => none

/-! ## Writes -/

/-- A write the engine's inputs take unless BUSY, when it is dropped and BUSYWR is set (`44_commands.md` R269). -/
def State.unlessBusy (s : State) (written : State) : State :=
  if s.busy then { s with busyWr := true } else written

/-- A write to a register but CMD: read-only registers and reserved offsets ignore it (R269, R21). -/
def State.writeReg (s : State) (offset : Nat) (v : Word) : State :=
  match s.cfg.written offset v with
  | some c => s.unlessBusy { s with cfg := c }
  | none => s

/-- A write to IN; outside the space it has no effect and sets no flag (`20_memory.md` R80). -/
def State.writeIn (s : State) (index : Nat) (v : Byte) : State :=
  if index < s.caps.inBytes then s.unlessBusy { s with inMem := cellSet s.inMem index v } else s

/-- A write to PLTE (R75, R80). -/
def State.writePlte (s : State) (index : Nat) (e : Rgb) : State :=
  if index < 256 then s.unlessBusy { s with plte := cellSet s.plte index e } else s

/-- A write to TRNS (R76, R80). -/
def State.writeTrns (s : State) (index : Nat) (v : Byte) : State :=
  if index < 256 then s.unlessBusy { s with trns := cellSet s.trns index v } else s

/-! ## Reads -/

/-- A read of an IN byte: unspecified outside the space (R80) and where nothing was written (R81). -/
def State.readIn (s : State) (index : Nat) : Byte :=
  if index < s.caps.inBytes then s.inByte index else Config.freeIn s.tick index

/-- A read of a PLTE entry (R75, R80, R81). -/
def State.readPlte (s : State) (index : Nat) : Rgb :=
  if index < 256 then s.plteEntry 0 index
  else ⟨Config.freePlte s.tick 0 index 0, Config.freePlte s.tick 0 index 1, Config.freePlte s.tick 0 index 2⟩

/-- A read of a TRNS byte (R76, R80, R81). -/
def State.readTrns (s : State) (index : Nat) : Byte :=
  if index < 256 then s.trnsByte 0 index else Config.freeTrns s.tick 0 index

/-- A host read of OUT finds the raster: DONE, and an element of it (R81). -/
def State.outReadable (s : State) (pix : Nat) : Bool :=
  s.fsm == .done && pix < s.pixelCount

/-- A read of an OUT element: its channels in order, drawn where the read is unspecified (R73, R81, log entry 14). -/
def State.readOut (s : State) (pix : Nat) : List Half :=
  ((List.finRange 4).take s.run.kind.channelCount).map fun ch =>
    if s.outReadable pix then s.outChannel pix ch
    else drawnChannel s.run.kind.channelWidth (Config.freeOut s.tick pix ch.val)

/-- The width of a CONV channel (R74). -/
def State.convWidth (s : State) : Nat :=
  if s.convFmt then 16 else 8

/-- A drawn CONV element. -/
def State.drawnConv (s : State) (pix : Nat) : Rgba :=
  let draw := fun ch => drawnChannel s.convWidth (Config.freeConv s.tick pix ch)
  ⟨draw 0, draw 1, draw 2, draw 3⟩

/-- A read of a CONV element: unspecified unless CONV_VALID and the element is of the raster (R74, R81). -/
def State.readConv (s : State) (pix : Nat) : Rgba :=
  if s.convValid && pix < s.pixelCount then (cellGet s.conv pix).getD (s.drawnConv pix) else s.drawnConv pix

/-- Hand a read's value to the host; nothing else changes (R79). -/
def State.answer (s : State) (v : ReadValue) : State :=
  { s with lastRead := some v }

/-! ## One access -/

/-- The value a host action writes to CMD, if it writes CMD (`10_state.md` R22). -/
def HostAction.command? : HostAction → Option Word
  | .writeReg 0 v => some v
  | _ => none

/-- A host action that is no command. Writes to OUT and CONV have no effect (R73, R74). -/
def State.hostAccess (s : State) : HostAction → State
  | .writeReg offset v => s.writeReg offset v
  | .readReg offset => s.answer (.register (s.readReg offset))
  | .writeIn index v => s.writeIn index v
  | .readIn index => s.answer (.byte (s.readIn index))
  | .writePlte index e => s.writePlte index e
  | .readPlte index => s.answer (.entry (s.readPlte index))
  | .writeTrns index v => s.writeTrns index v
  | .readTrns index => s.answer (.byte (s.readTrns index))
  | .writeOut _ _ => s
  | .readOut pix => s.answer (.element (s.readOut pix))
  | .writeConv _ _ => s
  | .readConv pix => s.answer (.converted (s.readConv pix))

end Sys2Proof.Machine
end

