-- ==== Sys2Proof/Machine/Step.lean ====
section
/-! DEFINITION. One step: the next event of the agenda, or an engine step when none is left. -/

namespace Sys2Proof.Machine

/-- The filter instruction FTYPE stands for (`40_defilter.md` R120). -/
def State.currentFilter (s : State) : Except DecodeReject Instr :=
  decodeSelector (s.pos.ftype.setWidth 8)

/-- The mode instruction (RUN_CT, RUN_BD) stands for (`43_color_demux.md` R234). -/
def State.currentMode (s : State) : Except DecodeReject Instr :=
  decodeMode s.run.ct s.run.bd

/-- AwaitingRow (`41_adam7.md` R162). -/
def awaitingRowStep (s : State) : Host.Outcome State Fault Refusal :=
  if s.exhausted then .next s.enterDone
  else
    match s.fetchByte with
    | none => .fault .inputOverrun
    | some ft =>
      match decodeSelector ft with
      | .ok i => exec i s
      | .error _ => .next s.rejectSelector

/-- UnfilteringRow (`41_adam7.md` R163): the row's filter, then the image's mode on the samples it hands on, then the advance;
one indivisible step (log entry 7). -/
def unfilteringRowStep (s : State) : Host.Outcome State Fault Refusal :=
  if s.exhausted then .next s.enterDone
  else
    match s.currentFilter, s.currentMode with
    | .ok f, .ok m => andThen (andThen (exec f s) (exec m)) fun t => .next t.finishByte
    | .error _, _ => .fault .illegalFilterType
    | .ok _, .error _ => .fault .illegalModeKey

/-- One engine step (`41_adam7.md` R160); in Idle, Done and Error the engine does nothing (log entry 5). -/
def engineStep (s : State) : Host.Outcome State Fault Refusal :=
  match s.fsm with
  | .idle | .done | .error => .next s
  | .awaitingRow => awaitingRowStep s
  | .unfilteringRow => unfilteringRowStep s
  | .rowComplete => .next s.completeRow
  | .passComplete => .next s.completePass

/-- One host action (`44_commands.md` R250). -/
def hostStep (a : HostAction) (s : State) : Host.Outcome State Fault Refusal :=
  match a.command? with
  | some value =>
    match decodeCommand value with
    | .ok i => exec i s
    | .error _ => .next s.undefinedCommand
  | none => .next (s.hostAccess a)

/-- One step of the machine. -/
def step (s : State) : Host.Outcome State Fault Refusal :=
  match s.agenda.head? with
  | none => engineStep s.beginStep
  | some .engine => engineStep s.beginStep
  | some (.host a) => hostStep a s.beginStep
  | some .reset => .next s.beginStep.hardReset

/-! ## Placing an instruction where the next step finds it (log entry 16) -/

/-- A selector at IN_PTR, the engine about to read it. -/
def State.withSelector (s : State) (ft : Byte) : State :=
  { s with
    agenda := .engine :: s.agenda
    fsm := .awaitingRow
    inMem := cellSet s.inMem s.pos.inPtr.toNat ft
    cfg := { s.cfg with inLen := s.pos.inPtr + 1 } }

/-- A write to CMD as the next event. -/
def State.withCommand (s : State) (value : Word) : State :=
  { s with agenda := .host (.writeReg 0 value) :: s.agenda }

/-- A mode key latched for a 1 × 1 image, the engine about to reconstruct the first byte, of type NONE and value 0. -/
def State.withModeKey (s : State) (ct bd : Byte) : State :=
  let cfg := { s.cfg with width := 1, height := 1, bitDepth := bd, colorType := ct, interlace := 0, inLen := s.pos.inPtr + 1 }
  let s₁ :=
    { s with
      agenda := .engine :: s.agenda
      cfg := cfg
      run := cfg.latched
      inMem := cellSet s.inMem s.pos.inPtr.toNat 0
      pos := { s.pos with ftype := 0 } }
  { s₁.enterPass 0 with fsm := .unfilteringRow }

/-- The state with a table word stored where step finds its next instruction. -/
def State.withFetchWord (s : State) (nbits w : Nat) : State :=
  let bits : Word := BitVec.ofNat 32 w
  match tableFormat nbits with
  | .filter => s.withSelector (bits.setWidth 8)
  | .command => s.withCommand bits
  | .mode => s.withModeKey (bits.extractLsb' 8 8) (bits.setWidth 8)

end Sys2Proof.Machine
end

