-- ==== Sys2Proof/Safety.lean ====
section
/-! DEFINITION. What counts as a sound state: the invariants the claims are stated with, and how much of a decode is left. -/

namespace Sys2Proof.Machine

/-! ## What is left of a decode -/

/-- The passes of the image after the current one. -/
def State.passesToCome (s : State) : List Nat :=
  (imagePasses s.run.il).filter (s.pos.pass.toNat < ·)

/-- The IN bytes of the passes to come (`41_adam7.md` R156). -/
def State.bytesToCome (s : State) : Nat :=
  (s.passesToCome.map (passBytes · s.run.w.toNat s.run.h.toNat s.run.pbits)).sum

/-- The rows of the current pass after the current row. -/
def State.rowsToCome (s : State) : Nat :=
  s.geo.prows.toNat - (s.pos.lrow.toNat + 1)

/-- The IN bytes the walk has still to read (`41_adam7.md` R168). -/
def State.bytesLeft (s : State) : Nat :=
  match s.fsm with
  | .awaitingRow => (s.rowsToCome + 1) * (1 + s.geo.rb) + s.bytesToCome
  | .unfilteringRow => (s.geo.rb - s.pos.lbyte.toNat) + s.rowsToCome * (1 + s.geo.rb) + s.bytesToCome
  | .rowComplete => s.rowsToCome * (1 + s.geo.rb) + s.bytesToCome
  | .passComplete => s.bytesToCome
  | .idle | .done | .error => 0

/-- The engine steps of one pass (`70_reset_and_hazards.md` R329). -/
def passSteps (w h pbits q : Nat) : Nat :=
  if passNonEmpty q w h then passRows q h * (rowBytes q w pbits + 2) + 1 else 0

/-- The engine steps of a decode that ends in Done (R329). -/
def decodeSteps (c : CfgRegs) : Nat :=
  ((imagePasses c.interlace).map
    (passSteps c.width.toNat c.height.toNat (pixelBits c.colorType c.bitDepth))).sum

/-- The engine steps left, unless an error ends the decode before. -/
def State.stepsLeft (s : State) : Nat :=
  let later := (s.passesToCome.map (passSteps s.run.w.toNat s.run.h.toNat s.run.pbits)).sum
  match s.fsm with
  | .awaitingRow => (s.rowsToCome + 1) * (s.geo.rb + 2) + 1 + later
  | .unfilteringRow => (s.geo.rb - s.pos.lbyte.toNat) + 1 + s.rowsToCome * (s.geo.rb + 2) + 1 + later
  | .rowComplete => 1 + s.rowsToCome * (s.geo.rb + 2) + 1 + later
  | .passComplete => 1 + later
  | .idle | .done | .error => 0

/-! ## The invariant of every reachable state -/

/-- The codes the PDE writes to ERR_CODE (`60_exceptions.md` R291). -/
def raisedCodes : List Byte :=
  [5, 6, 7, 9, 10, 11, 12]

/-- A raster whose kind the adapter of its bit depth takes (`44_commands.md` §5). -/
def RunRegs.adaptable (r : RunRegs) : Prop :=
  if r.bd.toNat ≤ 8 then (adapter8 r.kind).isSome = true else (adapter16 r.kind).isSome = true

/-- A decode in progress: the configuration is the accepted one, it is the one latched, and the position lies in a
non-empty pass of the image. -/
structure State.Decoding (s : State) : Prop where
  accepted : s.cfg.startError s.caps = none
  latched : s.run = s.cfg.latched
  inImage : s.pos.pass.toNat ∈ imagePasses s.run.il
  nonEmpty : passNonEmpty s.pos.pass.toNat s.run.w.toNat s.run.h.toNat = true
  geometry : s.geo = GeoRegs.ofPass s.pos.pass.toNat s.run.w.toNat s.run.h.toNat s.run.pbits
  row : s.fsm ≠ .passComplete → s.pos.lrow.toNat < s.geo.prows.toNat
  byte : s.fsm = .unfilteringRow → s.pos.lbyte.toNat < s.geo.rb
  input : s.pos.inPtr.toNat + s.bytesLeft = s.cfg.inLen.toNat

/-- The invariant: the form of the memories, the status fields against FSM, and what each state of the walk holds. -/
structure State.Sound (s : State) : Prop where
  capacity : 2 ≤ s.caps.inBytes ∧ 1 ≤ s.caps.pixels ∧ 1 ≤ s.caps.rowBytes
  memory : Memory.wf s
  handedOn : s.samples = []
  filterType : s.pos.ftype.toNat ≤ 4
  noError : s.fsm ≠ .error → s.errCode = 0
  someError : s.fsm = .error → s.errCode ∈ raisedCodes
  convFormat : s.convFmt = true → s.convValid = true
  convOfDone : s.convValid = true → s.fsm = .done
  converted : s.convValid = true → ∀ pix, (cellGet s.conv pix).isSome = true ↔ pix < s.pixelCount
  idle : s.fsm = .idle → s.dropPreviousResult = s
  decoding : s.busy = true → s.Decoding
  finished : s.fsm = .done → s.pixelCount ≤ s.caps.pixels ∧ s.run.adaptable

/-! ## How far the raster is written -/

/-- The channel a sample must have for raster channel `ch` to be written: an indexed sample writes every channel
(`43_color_demux.md` R229). -/
def RunRegs.sourceChannel (r : RunRegs) (ch : Nat) : Nat :=
  if r.ct = 3 then 0 else ch

/-- The row byte that completes sample `index` of a row (`42_unpack.md` R191 to R193). -/
def RunRegs.completingByte (r : RunRegs) (index : Nat) : Nat :=
  if r.bd.toNat < 8 then index / (8 / r.bd.toNat) else if r.bd.toNat = 8 then index else 2 * index + 1

/-- The walk has emitted channel `ch` of local position (lx, ly) of pass `q`. -/
def State.hasEmitted (s : State) (q lx ly ch : Nat) : Prop :=
  s.fsm = .done ∨ q < s.pos.pass.toNat ∨
  (q = s.pos.pass.toNat ∧
    (s.fsm = .passComplete ∨ ly < s.pos.lrow.toNat ∨
      (ly = s.pos.lrow.toNat ∧
        (s.fsm = .rowComplete ∨
          (s.fsm = .unfilteringRow ∧
            s.run.completingByte (lx * channels s.run.ct + s.run.sourceChannel ch) < s.pos.lbyte.toNat)))))

/-- A local position of pass `q` and the raster element it maps to (`41_adam7.md` R157). -/
structure LocalOf (r : RunRegs) (q lx ly pix : Nat) : Prop where
  pass : q ∈ imagePasses r.il
  column : lx < passCols q r.w.toNat
  row : ly < passRows q r.h.toNat
  element :
    pix = pixelIndex r.w.toNat (finalX (passGeometry q).sx (passGeometry q).dx lx)
      (finalY (passGeometry q).sy (passGeometry q).dy ly)

/-- While a decode runs and when it is done, OUT lists exactly the channels the walk has emitted (`41_adam7.md` R169). -/
structure State.RasterTrue (s : State) : Prop where
  inside : ∀ c ∈ s.out, c.1 / 4 < s.pixelCount ∧ c.1 % 4 < s.run.kind.channelCount
  exact : s.busy = true ∨ s.fsm = .done → ∀ q lx ly pix, LocalOf s.run q lx ly pix → ∀ ch : Fin 4,
    ch.val < s.run.kind.channelCount →
      ((cellGet s.out (outSlot pix ch)).isSome = true ↔ s.hasEmitted q lx ly ch.val)

/-! ## What the claims say of one step -/

/-- The engine takes the next step: nothing else is on the agenda before it. -/
def State.engineNext (s : State) : Prop :=
  s.agenda.head? = none ∨ s.agenda.head? = some .engine

/-- The host writes `value` to CMD next. -/
def State.commandNext (s : State) (value : Word) : Prop :=
  s.agenda.head? = some (.host (.writeReg 0 value))

/-- The engine stands before a data byte: it is in IN, and its place is in CUR. -/
structure State.AtDataByte (s : State) : Prop where
  unfiltering : s.fsm = .unfilteringRow
  input : s.pos.inPtr.toNat < s.caps.inBytes
  room : s.pos.lbyte.toNat < s.caps.rowBytes

/-- `t` is `s` with row byte LBYTE reconstructed as `y`: every other byte of CUR as it was, and nothing else changed but the
model's own hand-over of samples (log entry 7). -/
structure Reconstructed (s t : State) (y : Nat) : Prop where
  value : (cellGet t.cur s.pos.lbyte.toNat).map BitVec.toNat = some y
  others : ∀ j, j ≠ s.pos.lbyte.toNat → cellGet t.cur j = cellGet s.cur j
  frame : t = { s with cur := t.cur, samples := t.samples }

/-- Every sample handed on belongs to a raster element that OUT has. -/
def State.SamplesFit (s : State) : Prop :=
  ∀ x ∈ s.samples, x.pix < s.caps.pixels

/-- `t` is `s` with the samples handed on assembled: for each sample in turn the channels `writes` gives it, every other
channel of OUT as it was, and nothing else changed but the model's own hand-over of samples (log entry 7). -/
structure SamplesWritten (writes : Sample → List (Fin 4 × Half)) (s t : State) : Prop where
  channels :
    t.out = s.samples.foldl
      (fun o x => (writes x).foldl (fun o w => cellSet o (outSlot x.pix w.1) w.2) o) s.out
  others : ∀ a, (∀ x ∈ s.samples, ∀ w ∈ writes x, a ≠ outSlot x.pix w.1) → cellGet t.out a = cellGet s.out a
  frame : t = { s with out := t.out, samples := t.samples }

/-- `t` is what a failed START of `s` leaves: the error recorded, the previous result dropped, the inputs kept
(`44_commands.md` R251 to R253, `60_exceptions.md` R298). -/
structure StartFailed (s t : State) (code : Nat) : Prop where
  error : t.fsm = .error ∧ t.errCode.toNat = code
  accepted : t.cmdResult = .accepted
  dropped : t.run = RunRegs.zero ∧ t.geo = GeoRegs.zero ∧ t.pos = Position.zero ∧ t.out = [] ∧ t.conv = []
  cleared : t.busyWr = false ∧ t.convValid = false ∧ t.convFmt = false
  inputs : t.cfg = s.cfg ∧ t.inMem = s.inMem ∧ t.plte = s.plte ∧ t.trns = s.trns

/-- The 15 legal pairs (COLOR_TYPE, BIT_DEPTH) (`30_encoding.md` R94). -/
def legalPairs : List (Nat × Nat) :=
  [(0, 1), (0, 2), (0, 4), (0, 8), (0, 16), (2, 8), (2, 16), (3, 1), (3, 2), (3, 4), (3, 8), (4, 8), (4, 16), (6, 8), (6, 16)]

/-- The Adam7 tile (`41_adam7.md` R169): row y mod 8, column x mod 8 give the pass that holds (x, y). -/
def adam7Tile : List (List Nat) :=
  [[1, 6, 4, 6, 2, 6, 4, 6], [7, 7, 7, 7, 7, 7, 7, 7], [5, 6, 5, 6, 5, 6, 5, 6], [7, 7, 7, 7, 7, 7, 7, 7],
   [3, 6, 4, 6, 3, 6, 4, 6], [7, 7, 7, 7, 7, 7, 7, 7], [5, 6, 5, 6, 5, 6, 5, 6], [7, 7, 7, 7, 7, 7, 7, 7]]

/-- The offsets of the configuration registers and the bits each of them stores (`10_state.md` R29 to R34). -/
def configRegisters : List (Nat × Word) :=
  [(0x08, 0xFFFFFFFF), (0x0C, 0xFFFFFFFF), (0x10, 0x00FFFFFF), (0x14, 0x000101FF), (0x18, 0x000101FF), (0x1C, 0xFFFFFFFF)]

/-- Writes that change nothing in any state: reserved, misaligned and read-only registers, OUT, CONV, and indices outside a
space (`10_state.md` R21, `20_memory.md` R71, R73, R74, R80). -/
def HostAction.idleWrite (caps : Capacity) : HostAction → Prop
  | .writeReg offset _ => offset ≠ 0 ∧ offset ∉ configRegisters.map Prod.fst
  | .writeIn index _ => caps.inBytes ≤ index
  | .writePlte index _ => 256 ≤ index
  | .writeTrns index _ => 256 ≤ index
  | .writeOut _ _ => True
  | .writeConv _ _ => True
  | .readReg _ | .readIn _ | .readPlte _ | .readTrns _ | .readOut _ | .readConv _ => False

/-- Writes to an input of a decode: a configuration register, IN, PLTE or TRNS (`44_commands.md` R269). -/
def HostAction.inputWrite (caps : Capacity) : HostAction → Prop
  | .writeReg offset _ => offset ∈ configRegisters.map Prod.fst
  | .writeIn index _ => index < caps.inBytes
  | .writePlte index _ => index < 256
  | .writeTrns index _ => index < 256
  | .writeOut _ _ | .writeConv _ _ => False
  | .readReg _ | .readIn _ | .readPlte _ | .readTrns _ | .readOut _ | .readConv _ => False

/-- What a host read returns, if the action is a read. -/
def State.readValue? (s : State) : HostAction → Option ReadValue
  | .readReg offset => some (.register (s.readReg offset))
  | .readIn index => some (.byte (s.readIn index))
  | .readPlte index => some (.entry (s.readPlte index))
  | .readTrns index => some (.byte (s.readTrns index))
  | .readOut pix => some (.element (s.readOut pix))
  | .readConv pix => some (.converted (s.readConv pix))
  | .writeReg _ _ | .writeIn _ _ | .writePlte _ _ | .writeTrns _ _ | .writeOut _ _ | .writeConv _ _ => none

/-- The inputs of a decode are the same in both states. -/
def SameInputs (s t : State) : Prop :=
  t.cfg = s.cfg ∧ t.inMem = s.inMem ∧ t.plte = s.plte ∧ t.trns = s.trns

end Sys2Proof.Machine
end

