-- ==== Sys2Proof/Certificates/Slice0/Obligations.lean ====
section
/-! DEFINITION. The statements, in the order of the spec's rules. A state whose next step is the engine's answers from
`s.beginStep`, which only takes an event off the agenda and advances the draw counter. -/

open Sys2Proof Sys2Proof.Machine

/-! ## Encodings (`30_encoding.md`) -/

/-- R91, R98 and R102 on words written out from their tables: each of the 25 codes, and a command with bits above its
opcode. -/
def Obligations.TableWordsDecodeToTheirInstructions : Prop :=
  decodeSelector 0x00 = .ok .filtNone ∧ decodeSelector 0x01 = .ok .filtSub ∧ decodeSelector 0x02 = .ok .filtUp ∧
  decodeSelector 0x03 = .ok .filtAvg ∧ decodeSelector 0x04 = .ok .filtPaeth ∧
  decodeCommand 0x00000000 = .ok .nop ∧ decodeCommand 0x00000001 = .ok .start ∧ decodeCommand 0x00000101 = .ok .start ∧
  decodeCommand 0x00000002 = .ok .convertRgba8 ∧ decodeCommand 0x00000003 = .ok .convertRgba16 ∧
  decodeCommand 0x00000004 = .ok .release ∧
  decodeMode 0 1 = .ok .modeGray1 ∧ decodeMode 0 2 = .ok .modeGray2 ∧ decodeMode 0 4 = .ok .modeGray4 ∧
  decodeMode 0 8 = .ok .modeGray8 ∧ decodeMode 0 16 = .ok .modeGray16 ∧
  decodeMode 2 8 = .ok .modeRgb8 ∧ decodeMode 2 16 = .ok .modeRgb16 ∧
  decodeMode 3 1 = .ok .modeIdx1 ∧ decodeMode 3 2 = .ok .modeIdx2 ∧ decodeMode 3 4 = .ok .modeIdx4 ∧
  decodeMode 3 8 = .ok .modeIdx8 ∧
  decodeMode 4 8 = .ok .modeGa8 ∧ decodeMode 4 16 = .ok .modeGa16 ∧
  decodeMode 6 8 = .ok .modeRgba8 ∧ decodeMode 6 16 = .ok .modeRgba16

/-- R98 and R99 for every 32-bit value: bits [7:0] alone name the command, and 0x05 to 0xFF name none. -/
def Obligations.CommandIsItsLowByte : Prop :=
  ∀ value : Word, decodeCommand value =
    match (value &&& 0xFF).toNat with
    | 0 => .ok .nop
    | 1 => .ok .start
    | 2 => .ok .convertRgba8
    | 3 => .ok .convertRgba16
    | 4 => .ok .release
    | _ => .error .undefinedOpcode

/-- R94: the legal pairs are the 15 of the table, for the decoder as for the check, and START refuses every other pair with
InvalidHeader. -/
def Obligations.ExactlyFifteenFormatsAreLegal : Prop :=
  ∀ ct bd : Byte,
    (legalFormat ct bd = true ↔ (ct.toNat, bd.toNat) ∈ legalPairs) ∧
    ((∃ i, decodeMode ct bd = .ok i) ↔ (ct.toNat, bd.toNat) ∈ legalPairs) ∧
    ((ct.toNat, bd.toNat) ∉ legalPairs → ∀ s : State, s.busy = false → s.cfg.colorType = ct → s.cfg.bitDepth = bd →
      ∃ t, exec .start s = .next t ∧ StartFailed s t 6)

/-- The decoder and the encoder agree, both ways, on every code word: no bit that the opcode table fixes is dropped and no
other bit is read. -/
def Obligations.DecoderAndEncoderAgree : Prop :=
  (∀ i : Instr, i.wellFormed = true → decode (encode i) = .ok i) ∧
  ∀ (c : CodeWord) (i : Instr), decode c = .ok i ↔
    (c.wellFormed = true ∧ c.format = i.format ∧
      c.bits &&& (if i.format = .mode then 0xFFFF else 0xFF) = (encode i).bits)

/-! ## A step runs the decoded instruction -/

/-- A selector read in AwaitingRow, the row's selector and then the image's mode in UnfilteringRow, and a command written by
the host are each run by exec; UnfilteringRow adds the advance of R163 after the two. In Idle, Done and Error an engine step
changes nothing (the model's choice where R160 says 'none', log entry 5). -/
def Obligations.StepRunsTheDecodedInstruction : Prop :=
  ∀ s : State,
    (s.engineNext → s.fsm = .awaitingRow → s.exhausted = false → ∀ ft i, s.beginStep.fetchByte = some ft →
      decodeSelector ft = .ok i → step s = exec i s.beginStep) ∧
    (s.engineNext → s.fsm = .unfilteringRow → s.exhausted = false → ∀ f m, decodeSelector (s.pos.ftype.setWidth 8) = .ok f →
      decodeMode s.run.ct s.run.bd = .ok m →
      step s = andThen (andThen (exec f s.beginStep) (exec m)) fun t => .next t.finishByte) ∧
    (∀ value i, s.commandNext value → decodeCommand value = .ok i → step s = exec i s.beginStep) ∧
    (s.engineNext → s.fsm = .idle ∨ s.fsm = .done ∨ s.fsm = .error → step s = .next s.beginStep)

/-! ## Filter reversal (`40_defilter.md`) -/

/-- A selector in AwaitingRow latches its type and begins the row; outside AwaitingRow and UnfilteringRow it does nothing (the
model's choice, log entry 8). -/
def Obligations.SelectorLatchesItsFilterType : Prop :=
  ∀ p ∈ ([(.filtNone, 0), (.filtSub, 1), (.filtUp, 2), (.filtAvg, 3), (.filtPaeth, 4)] : List (Instr × BitVec 3)),
    ∀ s : State,
      (s.fsm = .awaitingRow →
        exec p.1 s = .next { s with
          fsm := .unfilteringRow
          pos := { s.pos with ftype := p.2, inPtr := s.pos.inPtr + 1, lbyte := 0 } }) ∧
      (s.fsm ≠ .awaitingRow → s.fsm ≠ .unfilteringRow → exec p.1 s = .next s)

/-- R125. -/
def Obligations.NoneCopiesTheInputByte : Prop :=
  decodeSelector 0x00 = .ok .filtNone ∧
  ∀ s : State, s.AtDataByte →
    ∃ t, exec .filtNone s = .next t ∧ Reconstructed s t (s.inByte s.pos.inPtr.toNat).toNat

/-- R126 with the left reference of R121. -/
def Obligations.SubAddsTheLeftReference : Prop :=
  decodeSelector 0x01 = .ok .filtSub ∧
  ∀ s : State, s.AtDataByte →
    let i := s.pos.lbyte.toNat
    let a := if s.run.bpp ≤ i then (s.curByte (i - s.run.bpp)).toNat else 0
    ∃ t, exec .filtSub s = .next t ∧ Reconstructed s t (((s.inByte s.pos.inPtr.toNat).toNat + a) % 256)

/-- R127 with the up reference of R122. -/
def Obligations.UpAddsTheUpReference : Prop :=
  decodeSelector 0x02 = .ok .filtUp ∧
  ∀ s : State, s.AtDataByte →
    let i := s.pos.lbyte.toNat
    let b := if s.pos.hasPrior = true then (s.priorByte i).toNat else 0
    ∃ t, exec .filtUp s = .next t ∧ Reconstructed s t (((s.inByte s.pos.inPtr.toNat).toNat + b) % 256)

/-- R128: the sum has 9 bits, the halving rounds down. -/
def Obligations.AvgAddsTheFlooredMean : Prop :=
  decodeSelector 0x03 = .ok .filtAvg ∧
  ∀ s : State, s.AtDataByte →
    let i := s.pos.lbyte.toNat
    let a := if s.run.bpp ≤ i then (s.curByte (i - s.run.bpp)).toNat else 0
    let b := if s.pos.hasPrior = true then (s.priorByte i).toNat else 0
    ∃ t, exec .filtAvg s = .next t ∧ Reconstructed s t (((s.inByte s.pos.inPtr.toNat).toNat + (a + b) / 2) % 256)

/-- R130 with the references of R121 to R123, and its corner cases: PAETH acts as SUB where b = c = 0 and as UP where
a = c = 0. -/
def Obligations.PaethAddsThePredictor : Prop :=
  decodeSelector 0x04 = .ok .filtPaeth ∧
  (∀ s : State, s.AtDataByte →
    let i := s.pos.lbyte.toNat
    let a : Byte := if s.run.bpp ≤ i then s.curByte (i - s.run.bpp) else 0
    let b : Byte := if s.pos.hasPrior = true then s.priorByte i else 0
    let c : Byte := if s.pos.hasPrior = true ∧ s.run.bpp ≤ i then s.priorByte (i - s.run.bpp) else 0
    ∃ t, exec .filtPaeth s = .next t ∧
      Reconstructed s t (((s.inByte s.pos.inPtr.toNat).toNat + (paeth a b c).toNat) % 256)) ∧
  (∀ x a : Byte, reconPaeth x a 0 0 = reconSub x a 0 0) ∧
  (∀ x b : Byte, reconPaeth x 0 b 0 = reconUp x 0 b 0) ∧
  (∀ a : Byte, paeth a a a = a) ∧ paeth 10 20 0 = 20

/-- R129: the predictor is the reference nearest to a + b - c, ties to a, then to b; the intermediates stay in the ranges the
rule gives. -/
def Obligations.PaethPicksTheNearestReference : Prop :=
  ∀ a b c : Byte,
    let p : Int := (a.toNat : Int) + b.toNat - c.toNat
    let d : Byte → Nat := fun v => (p - v.toNat).natAbs
    (-255 ≤ p ∧ p ≤ 510 ∧ d a ≤ 510 ∧ d b ≤ 510 ∧ d c ≤ 510) ∧
    (d a = ((b.toNat : Int) - c.toNat).natAbs ∧ d b = ((a.toNat : Int) - c.toNat).natAbs ∧
      d c = ((a.toNat : Int) + b.toNat - 2 * c.toNat).natAbs) ∧
    (d (paeth a b c) ≤ d a ∧ d (paeth a b c) ≤ d b ∧ d (paeth a b c) ≤ d c) ∧
    (d a ≤ d b ∧ d a ≤ d c → paeth a b c = a) ∧
    (¬ (d a ≤ d b ∧ d a ≤ d c) → d b ≤ d c → paeth a b c = b) ∧
    (¬ (d a ≤ d b ∧ d a ≤ d c) → d c < d b → paeth a b c = c)

/-- R133: a byte filtered forward by the row's type is reconstructed, by every selector; and what forward filtering is. -/
def Obligations.ReversalInvertsTheForwardFilter : Prop :=
  (∀ (ft : BitVec 3) (f : Instr), decodeSelector (ft.setWidth 8) = .ok f → ∀ s : State, s.AtDataByte → ∀ y : Byte,
    let i := s.pos.lbyte.toNat
    let a : Byte := if s.run.bpp ≤ i then s.curByte (i - s.run.bpp) else 0
    let b : Byte := if s.pos.hasPrior = true then s.priorByte i else 0
    let c : Byte := if s.pos.hasPrior = true ∧ s.run.bpp ≤ i then s.priorByte (i - s.run.bpp) else 0
    s.inByte s.pos.inPtr.toNat = forwardFilter ft y a b c →
      ∃ t, exec f s = .next t ∧ Reconstructed s t y.toNat) ∧
  ∀ y a b c : Byte,
    forwardFilter 0 y a b c = y ∧
    (forwardFilter 1 y a b c).toNat = (y.toNat + 256 - a.toNat) % 256 ∧
    (forwardFilter 2 y a b c).toNat = (y.toNat + 256 - b.toNat) % 256 ∧
    (forwardFilter 3 y a b c).toNat = (y.toNat + 256 - (a.toNat + b.toNat) / 2) % 256 ∧
    (forwardFilter 4 y a b c).toNat = (y.toNat + 256 - (paeth a b c).toNat) % 256

/-- Every selector hands on the samples that its byte completes, out of the row as it is after the byte (`42_unpack.md` R195). The
field they are handed on in is the model's own (log entry 7). -/
def Obligations.SelectorsHandOnTheirSamples : Prop :=
  ∀ f ∈ [Instr.filtNone, .filtSub, .filtUp, .filtAvg, .filtPaeth], ∀ s : State, s.AtDataByte →
    ∃ t, exec f s = .next t ∧ t.samples = t.emitted s.pos.lbyte.toNat ∧
      t = { s with cur := t.cur, samples := t.samples }

/-! ## Adam7 geometry and the pass walk (`41_adam7.md`) -/

/-- R161 with the table of R150, pass 0 of R151 and the counts of R152 and R153. -/
def Obligations.EnterPassLoadsItsGeometry : Prop :=
  ∀ (s : State) (q : Nat), q ≤ 7 →
    let t := s.enterPass q
    let w := s.run.w.toNat
    let h := s.run.h.toNat
    [(0, 0, 1, 1), (0, 0, 8, 8), (4, 0, 8, 8), (0, 4, 4, 8), (2, 0, 4, 4), (0, 2, 2, 4), (1, 0, 2, 2), (0, 1, 1, 2)][q]? =
      some (t.geo.sx, t.geo.sy, t.geo.dx, t.geo.dy) ∧
    t.geo.pcols.toNat = (if w > t.geo.sx then (w - t.geo.sx + t.geo.dx - 1) / t.geo.dx else 0) ∧
    t.geo.prows.toNat = (if h > t.geo.sy then (h - t.geo.sy + t.geo.dy - 1) / t.geo.dy else 0) ∧
    t.geo.rb = (t.geo.pcols.toNat * s.run.pbits + 7) / 8 ∧
    t.pos.pass.toNat = q ∧ t.pos.lrow = 0 ∧ t.pos.lbyte = 0 ∧ t.pos.hasPrior = false ∧
    t = { s with
      geo := t.geo
      pos := { t.pos with inPtr := s.pos.inPtr, ftype := s.pos.ftype } }

/-- R159: a local column is of the pass exactly if its final column is of the image, and so for rows. -/
def Obligations.LocalPositionsAreThoseInsideTheImage : Prop :=
  ∀ q n k : Nat,
    (k < passCols q n ↔ finalX (passGeometry q).sx (passGeometry q).dx k < n) ∧
    (k < passRows q n ↔ finalY (passGeometry q).sy (passGeometry q).dy k < n)

/-- R156, and that both of its branches are the sum over the passes of the image. -/
def Obligations.ExpectedSizeSumsThePasses : Prop :=
  ∀ (w h : Nat) (ct bd il : Byte),
    let pb := channels ct * bd.toNat
    (il = 0 → expectedSize w h ct bd il = h * (1 + (w * pb + 7) / 8)) ∧
    (il ≠ 0 → expectedSize w h ct bd il =
      ([1, 2, 3, 4, 5, 6, 7].map fun q =>
        if 0 < passCols q w ∧ 0 < passRows q h then passRows q h * (1 + (passCols q w * pb + 7) / 8) else 0).sum) ∧
    (0 < w → 0 < h → expectedSize w h ct bd il = ((imagePasses il).map (passBytes · w h pb)).sum)

/-- R35: EXPECTED_SIZE reads the expected size; 0 when the header is illegal or the size needs more than 32 bits, and in no
other case; so it reads 0 after reset. -/
def Obligations.ExpectedSizeRegisterReadsTheSize : Prop :=
  (∀ s : State,
    let c := s.cfg
    let size := expectedSize c.width.toNat c.height.toNat c.colorType c.bitDepth c.interlace
    let legal := 0 < c.width.toNat ∧ 0 < c.height.toNat ∧ c.interlace.toNat ≤ 1 ∧
      (c.colorType.toNat, c.bitDepth.toNat) ∈ legalPairs
    (legal → 2 ≤ size) ∧
    (legal → size ≤ 2 ^ 32 - 1 → (s.readReg 0x20).toNat = size) ∧
    (¬ legal ∨ 2 ^ 32 - 1 < size → s.readReg 0x20 = 0)) ∧
  State.reset.readReg 0x20 = 0

/-- R171: the walk begins at pass 0 or pass 1, the least pass that is not empty. -/
def Obligations.FirstPassIsTheLeastNonEmpty : Prop :=
  ∀ (il : Byte) (w h : Nat), il.toNat ≤ 1 → 0 < w → 0 < h →
    firstPass il w h = (if il = 0 then 0 else 1) ∧ firstPass il w h ∈ imagePasses il ∧
    passNonEmpty (firstPass il w h) w h = true ∧
    ∀ q ∈ imagePasses il, passNonEmpty q w h = true → firstPass il w h ≤ q

/-- R169: the local positions of the passes of an image and its pixels correspond one to one, and in an interlaced image the
tile names the pass. -/
def Obligations.PassesPartitionTheRaster : Prop :=
  ∀ r : RunRegs,
    (∀ q lx ly pix, LocalOf r q lx ly pix → pix < r.w.toNat * r.h.toNat) ∧
    (∀ pix, pix < r.w.toNat * r.h.toNat → ∃ q lx ly, LocalOf r q lx ly pix ∧
      ∀ q' lx' ly', LocalOf r q' lx' ly' pix → q' = q ∧ lx' = lx ∧ ly' = ly) ∧
    (r.il ≠ 0 → ∀ q lx ly pix, LocalOf r q lx ly pix →
      (adam7Tile[pix / r.w.toNat % 8]?.bind fun row => row[pix % r.w.toNat % 8]?) = some q)

/-- R162, for an IN_LEN that IN can hold. What IN_LEN exhausts ends in Done, the model's choice between the two that R167
allows (log entry 9). That an illegal selector leaves LBYTE is the model's reading of R162 and R298 against R299, which says that
LBYTE is 0 (log entry 21). -/
def Obligations.AwaitingRowReadsASelector : Prop :=
  ∀ s : State, s.engineNext → s.fsm = .awaitingRow → s.cfg.inLen.toNat ≤ s.caps.inBytes →
    let b := s.beginStep
    let ft := b.inByte s.pos.inPtr.toNat
    ∃ t, step s = .next t ∧
      (s.cfg.inLen.toNat ≤ s.pos.inPtr.toNat → t = { b with fsm := .done }) ∧
      (s.pos.inPtr.toNat < s.cfg.inLen.toNat → ft.toNat ≤ 4 →
        t = { b with
          fsm := .unfilteringRow
          pos := { s.pos with ftype := ft.setWidth 3, inPtr := s.pos.inPtr + 1, lbyte := 0 } }) ∧
      (s.pos.inPtr.toNat < s.cfg.inLen.toNat → 4 < ft.toNat →
        t.fsm = .error ∧ t.errCode = 10 ∧ t.pos.inPtr = s.pos.inPtr ∧ t.pos.lbyte = s.pos.lbyte)

/-- R163, in a sound state: the byte is reconstructed and the position advances, or a palette index fails and the position
stays. That HAS_PRIOR stays with it after the error is the model's choice (log entry 11). -/
def Obligations.UnfilteringRowAdvancesOneByte : Prop :=
  ∀ s : State, s.Sound → s.engineNext → s.fsm = .unfilteringRow →
    let i := s.pos.lbyte.toNat
    ∃ t, step s = .next t ∧
      ((t.fsm = .error ∧ t.errCode = 11 ∧ t.pos = s.pos ∧ s.run.ct = 3) ∨
       (t.fsm = (if i + 1 = s.geo.rb then .rowComplete else .unfilteringRow) ∧
        t.pos = { s.pos with inPtr := s.pos.inPtr + 1, lbyte := s.pos.lbyte + 1 } ∧
        cellGet t.cur i = some (recon s.pos.ftype (s.beginStep.inByte s.pos.inPtr.toNat) (s.beginStep.leftRef i)
          (s.beginStep.upRef i) (s.beginStep.upLeftRef i)) ∧
        (∀ j, j ≠ i → cellGet t.cur j = cellGet s.cur j) ∧
        t = { s.beginStep with fsm := t.fsm, pos := t.pos, cur := t.cur, out := t.out }))

/-- R164. -/
def Obligations.RowCompleteMakesTheRowPrior : Prop :=
  ∀ s : State, s.engineNext → s.fsm = .rowComplete →
    ∃ t, step s = .next t ∧
      (∀ j, j < s.geo.rb → cellGet t.prior j = cellGet s.cur j) ∧
      (∀ j, s.geo.rb ≤ j → cellGet t.prior j = cellGet s.prior j) ∧
      t = { s.beginStep with
        prior := t.prior
        fsm := if s.pos.lrow.toNat + 1 < s.geo.prows.toNat then .awaitingRow else .passComplete
        pos := { s.pos with hasPrior := true, lrow := s.pos.lrow + 1 } }

/-- R165: the single pass ends the decode; otherwise the least later non-empty pass is entered, and the decode ends when there
is none. -/
def Obligations.PassCompleteEntersTheNextPass : Prop :=
  ∀ s : State, s.engineNext → s.fsm = .passComplete →
    let b := s.beginStep
    (s.run.il = 0 → step s = .next { b with fsm := .done }) ∧
    (s.run.il ≠ 0 → (∀ q, s.pos.pass.toNat < q → q ≤ 7 → passNonEmpty q s.run.w.toNat s.run.h.toNat = false) →
      step s = .next { b with fsm := .done }) ∧
    (s.run.il ≠ 0 → ∀ q, s.pos.pass.toNat < q → q ≤ 7 → passNonEmpty q s.run.w.toNat s.run.h.toNat = true →
      (∀ p, s.pos.pass.toNat < p → p < q → passNonEmpty p s.run.w.toNat s.run.h.toNat = false) →
      step s = .next { b.enterPass q with fsm := .awaitingRow })

/-- R168: in a sound state each engine step of AwaitingRow and UnfilteringRow that raises nothing reads the next byte of IN,
no other step moves IN_PTR, and a decode enters Done at IN_LEN, which is the expected size. -/
def Obligations.EachInputByteIsReadOnceInOrder : Prop :=
  ∀ s t : State, s.Sound → s.busy = true → step s = .next t → s.agenda.head? ≠ some .reset →
    (t.fsm = .error → t.pos.inPtr = s.pos.inPtr) ∧
    (t.fsm ≠ .error → s.engineNext → t.pos.inPtr.toNat =
      s.pos.inPtr.toNat + if s.fsm = .awaitingRow ∨ s.fsm = .unfilteringRow then 1 else 0) ∧
    (¬ s.engineNext → t.pos.inPtr = s.pos.inPtr ∧ t.fsm = s.fsm) ∧
    (t.fsm = .done → t.pos.inPtr.toNat = s.cfg.expectedSize)

/-! ## Unpacking (`42_unpack.md`) -/

/-- R191 to R193: the samples a row byte completes, by bit depth, with their indices in the row. -/
def Obligations.RowBytesCompleteTheirSamples : Prop :=
  ∀ (s : State) (i : Nat),
    (s.run.bd.toNat ∈ [1, 2, 4] →
      let bd := s.run.bd.toNat
      let spb := 8 / bd
      (s.rowSamples i).length = spb ∧
      ∀ k, k < spb → (s.rowSamples i)[k]? = some (i * spb + k, (s.curByte i).toNat / 2 ^ (8 - bd * (k + 1)) % 2 ^ bd)) ∧
    (s.run.bd = 8 → s.rowSamples i = [(i, (s.curByte i).toNat)]) ∧
    (s.run.bd = 16 →
      s.rowSamples (2 * i) = [] ∧
      s.rowSamples (2 * i + 1) = [(i, (s.curByte (2 * i)).toNat * 256 + (s.curByte (2 * i + 1)).toNat)])

/-- R194, R195 and R197: a sample is handed on exactly if its final position lies in the raster, for that element and its
channel, in the order of the row. -/
def Obligations.EmittedSamplesLieInTheRaster : Prop :=
  ∀ (s : State) (i : Nat), legalFormat s.run.ct s.run.bd = true →
    let place : Nat × Nat → Option (Nat × Nat × Nat) := fun c =>
      let fx := s.geo.sx + c.1 / channels s.run.ct * s.geo.dx
      let fy := s.geo.sy + s.pos.lrow.toNat * s.geo.dy
      if fx ≥ s.run.w.toNat ∨ fy ≥ s.run.h.toNat then none
      else some (fy * s.run.w.toNat + fx, c.1 % channels s.run.ct, c.2)
    (s.emitted i).map (fun x => (x.pix, x.ch.val, x.v.toNat)) = (s.rowSamples i).filterMap place

/-- R199, in a sound state: nothing of a byte is discarded at 8 and 16 bits, and below only at the row's last byte, where one
sample at least remains. -/
def Obligations.OnlyRowEndSamplesAreDiscarded : Prop :=
  ∀ s : State, s.Sound → s.fsm = .unfilteringRow →
    let i := s.pos.lbyte.toNat
    (8 ≤ s.run.bd.toNat ∨ i + 1 < s.geo.rb → (s.emitted i).length = (s.rowSamples i).length) ∧
    (s.run.bd.toNat < 8 → (s.rowSamples i).length < (s.emitted i).length + 8 / s.run.bd.toNat)

/-! ## The demultiplexer (`43_color_demux.md`) -/

/-- R212, R218 to R220: the three sub-byte grey modes complete on every samples that fit, and write the sample times 255, 85
or 17. -/
def Obligations.SubByteGreyIsScaledExactly : Prop :=
  (∀ p ∈ ([(.modeGray1, 255), (.modeGray2, 85), (.modeGray4, 17)] : List (Instr × Nat)), ∀ s : State, s.SamplesFit →
    ∃ t, exec p.1 s = .next t ∧ SamplesWritten (fun x => [(0, BitVec.ofNat 16 (x.v.toNat * p.2))]) s t) ∧
  ∀ bd ∈ [1, 2, 4], 255 % (2 ^ bd - 1) = 0 ∧ scaleGrey bd 0 = 0 ∧ scaleGrey bd (BitVec.ofNat 16 (2 ^ bd - 1)) = 255

/-- R221 to R224 and R230 to R233: the modes that store a sample as it is, grey in channel 0, the others in the sample's own
channel. -/
def Obligations.WholeSamplesAreStoredUnchanged : Prop :=
  (∀ m ∈ [Instr.modeGray8, .modeGray16], ∀ s : State, s.SamplesFit →
    ∃ t, exec m s = .next t ∧ SamplesWritten (fun x => [(0, x.v)]) s t) ∧
  (∀ m ∈ [Instr.modeRgb8, .modeRgb16, .modeGa8, .modeGa16, .modeRgba8, .modeRgba16], ∀ s : State, s.SamplesFit →
    ∃ t, exec m s = .next t ∧ SamplesWritten (fun x => [(x.ch, x.v)]) s t)

/-- R214, R216, R225 to R229: an index below CFG_PLTE.COUNT writes its palette entry, unscaled, and with kind RGBA8 the alpha,
255 from CFG_TRNS.COUNT on. -/
def Obligations.IndexedSamplesWriteTheirPaletteEntry : Prop :=
  ∀ m ∈ [Instr.modeIdx1, .modeIdx2, .modeIdx4, .modeIdx8], ∀ s : State, s.SamplesFit →
    (∀ x ∈ s.samples, x.v.toNat < s.cfg.plteCount.toNat) →
    ∃ t, exec m s = .next t ∧
      SamplesWritten (fun x =>
        let e := s.plteEntry x.pix x.v.toNat
        let alpha : Byte := if x.v.toNat < s.cfg.trnsCount.toNat then s.trnsByte x.pix x.v.toNat else 255
        [(0, e.r.setWidth 16), (1, e.g.setWidth 16), (2, e.b.setWidth 16)] ++
          if s.run.kind = .rgba8 then [(3, alpha.setWidth 16)] else []) s t

/-- R215: an index that names no palette entry ends the decode with code 11; position, run, geometry and inputs stay. That
HAS_PRIOR stays with the position is the model's choice (log entry 11). -/
def Obligations.IndexBeyondThePaletteRaises : Prop :=
  ∀ m ∈ [Instr.modeIdx1, .modeIdx2, .modeIdx4, .modeIdx8], ∀ s : State, s.SamplesFit →
    (∃ x ∈ s.samples, s.cfg.plteCount.toNat ≤ x.v.toNat) →
    ∃ t, exec m s = .next t ∧ t.fsm = .error ∧ t.errCode = 11 ∧ t.convValid = false ∧ t.convFmt = false ∧
      t.pos = s.pos ∧ t.run = s.run ∧ t.geo = s.geo ∧ t.cmdResult = s.cmdResult ∧ t.busyWr = s.busyWr ∧ SameInputs s t

/-- R217: a CFG_TRNS.COUNT beyond the palette acts as CFG_TRNS.COUNT = CFG_PLTE.COUNT. -/
def Obligations.TransparencyBeyondThePaletteIsIgnored : Prop :=
  ∀ m ∈ [Instr.modeIdx1, .modeIdx2, .modeIdx4, .modeIdx8], ∀ s : State, s.SamplesFit →
    s.cfg.plteCount.toNat ≤ s.cfg.trnsCount.toNat →
    ∃ t, exec m s = .next t ∧
      exec m { s with cfg := { s.cfg with trnsCount := s.cfg.plteCount } } =
        .next { t with cfg := { s.cfg with trnsCount := s.cfg.plteCount } }

/-- R210 and R211: the kind has the channels of the colour type, 16 bits wide exactly at bit depth 16; an indexed image has
RGB, with alpha exactly if a transparency table is resolved. -/
def Obligations.RasterKindFollowsTheFormat : Prop :=
  ∀ (ct bd : Byte) (trns : Bool), legalFormat ct bd = true →
    let k := selectKind ct bd trns
    k.channelWidth = (if bd = 16 then 16 else 8) ∧
    k.channelCount = (if ct = 3 then (if trns then 4 else 3) else channels ct) ∧
    (ct = 3 → k = if trns then .rgba8 else .rgb8)

/-! ## Commands (`44_commands.md`) -/

/-- R256. -/
def Obligations.NopIsAcceptedInEveryState : Prop :=
  decodeCommand 0x00 = .ok .nop ∧ ∀ s : State, exec .nop s = .next { s with cmdResult := .accepted }

/-- R251 and R253 with the conditions of R293 to R297: the first check that fails gives the error, and a configuration that
passes all of them is taken. -/
def Obligations.StartChecksInTheirOrder : Prop :=
  ∀ s : State, s.busy = false →
    let c := s.cfg
    let w := c.width.toNat
    let h := c.height.toNat
    let size := expectedSize w h c.colorType c.bitDepth c.interlace
    let header := w = 0 ∨ h = 0 ∨ 1 < c.interlace.toNat ∨ (c.colorType.toNat, c.bitDepth.toNat) ∉ legalPairs
    let noPalette := c.colorType = 3 ∧ c.plteValid = false
    let palette := c.colorType = 3 ∧ c.plteValid = true ∧ 2 ^ c.bitDepth.toNat < c.plteCount.toNat
    let capacity := 2 ^ 32 - 1 < size ∨ s.caps.inBytes < size ∨ s.caps.pixels < w * h ∨
      ∃ q ∈ imagePasses c.interlace, passNonEmpty q w h = true ∧
        s.caps.rowBytes < rowBytes q w (channels c.colorType * c.bitDepth.toNat)
    ∃ t, exec .start s = .next t ∧
      (header → StartFailed s t 6) ∧
      (¬ header → noPalette → StartFailed s t 5) ∧
      (¬ header → ¬ noPalette → palette → StartFailed s t 7) ∧
      (¬ header → ¬ noPalette → ¬ palette → capacity → StartFailed s t 12) ∧
      (¬ header → ¬ noPalette → ¬ palette → ¬ capacity → c.inLen.toNat ≠ size → StartFailed s t 9) ∧
      (¬ header → ¬ noPalette → ¬ palette → ¬ capacity → c.inLen.toNat = size → t.fsm = .awaitingRow)

/-- R252, R254 and R255 for a configuration that passes the checks: the run registers latched, the first pass entered, the
previous result dropped, nothing else changed. -/
def Obligations.AcceptedStartLatchesAndBegins : Prop :=
  ∀ s : State, s.busy = false → s.cfg.startError s.caps = none →
    let c := s.cfg
    let q := firstPass c.interlace c.width.toNat c.height.toNat
    let pb := channels c.colorType * c.bitDepth.toNat
    ∃ t, exec .start s = .next t ∧
      t.run = { w := c.width, h := c.height, bd := c.bitDepth, ct := c.colorType, il := c.interlace,
                kind := selectKind c.colorType c.bitDepth c.trnsValid, pbits := pb, bpp := max 1 (pb / 8) } ∧
      t.geo = GeoRegs.ofPass q c.width.toNat c.height.toNat pb ∧
      t.pos = { pass := BitVec.ofNat 3 q, lrow := 0, lbyte := 0, inPtr := 0, ftype := 0, hasPrior := false } ∧
      t.fsm = .awaitingRow ∧ t.cmdResult = .accepted ∧ t.errCode = 0 ∧ t.busyWr = false ∧
      t.convValid = false ∧ t.convFmt = false ∧ t.out = [] ∧ t.conv = [] ∧
      t = { t with caps := s.caps, cfg := s.cfg, inMem := s.inMem, plte := s.plte, trns := s.trns, cur := s.cur,
                   prior := s.prior, samples := s.samples, agenda := s.agenda, lastRead := s.lastRead, tick := s.tick }

/-- R250, R257 and R258: which state refuses which command, changing nothing but CMD_RESULT; and the adapter that the bit depth
does not take is refused, no conversion valid afterwards. -/
def Obligations.RefusedCommandsHaveNoOtherEffect : Prop :=
  ∀ s : State,
    (s.busy = true → exec .start s = .next { s with cmdResult := .refusedState }) ∧
    (s.busy = true → exec .release s = .next { s with cmdResult := .refusedState }) ∧
    (s.fsm ≠ .done → exec .convertRgba8 s = .next { s with cmdResult := .refusedState }) ∧
    (s.fsm ≠ .done → exec .convertRgba16 s = .next { s with cmdResult := .refusedState }) ∧
    (s.fsm = .done → 8 < s.run.bd.toNat →
      exec .convertRgba8 s = .next { s with cmdResult := .refusedAdapter, convValid := false, convFmt := false }) ∧
    (s.fsm = .done → s.run.bd.toNat ≤ 8 →
      exec .convertRgba16 s = .next { s with cmdResult := .refusedAdapter, convValid := false, convFmt := false })

/-- R257 with the adapters R259 to R262. CONV lists the elements of the raster and no other: beyond the raster it is unspecified
(`20_memory.md` R81, log entry 3). -/
def Obligations.ConvertRgba8AdaptsEveryPixel : Prop :=
  ∀ s : State, s.fsm = .done → s.run.bd.toNat ≤ 8 → s.run.kind.channelWidth = 8 → s.pixelCount ≤ s.caps.pixels →
    ∃ t, exec .convertRgba8 s = .next t ∧
      (∀ pix, pix < s.pixelCount →
        let o := s.outChannel pix
        cellGet t.conv pix = some (
          if s.run.kind = .gray8 then ⟨o 0, o 0, o 0, 255⟩
          else if s.run.kind = .ga8 then ⟨o 0, o 0, o 0, o 1⟩
          else if s.run.kind = .rgb8 then ⟨o 0, o 1, o 2, 255⟩
          else ⟨o 0, o 1, o 2, o 3⟩)) ∧
      (∀ pix, s.pixelCount ≤ pix → cellGet t.conv pix = none) ∧
      t = { s with conv := t.conv, convFmt := false, convValid := true, cmdResult := .accepted }

/-- R258 with the adapters R263 to R266. CONV lists the elements of the raster and no other: beyond the raster it is unspecified
(`20_memory.md` R81, log entry 3). -/
def Obligations.ConvertRgba16AdaptsEveryPixel : Prop :=
  ∀ s : State, s.fsm = .done → 8 < s.run.bd.toNat → s.run.kind.channelWidth = 16 → s.pixelCount ≤ s.caps.pixels →
    ∃ t, exec .convertRgba16 s = .next t ∧
      (∀ pix, pix < s.pixelCount →
        let o := s.outChannel pix
        cellGet t.conv pix = some (
          if s.run.kind = .gray16 then ⟨o 0, o 0, o 0, 65535⟩
          else if s.run.kind = .ga16 then ⟨o 0, o 0, o 0, o 1⟩
          else if s.run.kind = .rgb16 then ⟨o 0, o 1, o 2, 65535⟩
          else ⟨o 0, o 1, o 2, o 3⟩)) ∧
      (∀ pix, s.pixelCount ≤ pix → cellGet t.conv pix = none) ∧
      t = { s with conv := t.conv, convFmt := true, convValid := true, cmdResult := .accepted }

/-- R267: RELEASE is refused while BUSY; else it drops the result and goes to Idle; a second one leaves the same state, and in a
sound Idle state it changes only CMD_RESULT. -/
def Obligations.ReleaseDropsTheResult : Prop :=
  decodeCommand 0x04 = .ok .release ∧
  ∀ s : State,
    (s.busy = true → exec .release s = .next { s with cmdResult := .refusedState }) ∧
    (s.busy = false →
      ∃ t, exec .release s = .next t ∧
        t = { s with
          fsm := .idle, cmdResult := .accepted, errCode := 0, busyWr := false, convValid := false, convFmt := false,
          run := RunRegs.zero, geo := GeoRegs.zero, pos := Position.zero, out := [], conv := [] } ∧
        exec .release t = .next t ∧
        (s.Sound → s.fsm = .idle → t = { s with cmdResult := .accepted }))

/-- R268. -/
def Obligations.UndefinedOpcodeSetsOnlyTheResult : Prop :=
  ∀ (s : State) (value : Word), s.commandNext value → 4 < (value &&& 0xFF).toNat →
    step s = .next { s.beginStep with cmdResult := .undefined }

/-! ## Host accesses (`10_state.md`, `20_memory.md`, `44_commands.md` §7) -/

/-- R269: an input write while BUSY sets BUSYWR and nothing else, a write to another register but CMD has no effect and sets no
flag, a command is never dropped, and so every input is constant while BUSY, reset apart. -/
def Obligations.BusyDropsInputWrites : Prop :=
  (∀ (s : State) (a : HostAction), s.agenda.head? = some (.host a) → s.busy = true → a.inputWrite s.caps →
    step s = .next { s.beginStep with busyWr := true }) ∧
  (∀ (s : State) (offset : Nat) (value : Word), s.agenda.head? = some (.host (.writeReg offset value)) → offset ≠ 0 →
    offset ∉ configRegisters.map Prod.fst → step s = .next s.beginStep) ∧
  (∀ (s : State) (value : Word) (i : Instr), s.commandNext value → s.busy = true → decodeCommand value = .ok i →
    step s = exec i s.beginStep) ∧
  ∀ s t : State, s.busy = true ∨ s.engineNext → step s = .next t → s.agenda.head? ≠ some .reset →
    SameInputs s t ∧ t.caps = s.caps

/-- R21, R22, R71, R73, R74 and R80: writes that change nothing in any state, and what CMD and reserved and misaligned offsets
read as. -/
def Obligations.WritesOutsideTheInputsHaveNoEffect : Prop :=
  (∀ (s : State) (a : HostAction), s.agenda.head? = some (.host a) → a.idleWrite s.caps → step s = .next s.beginStep) ∧
  ∀ (s : State) (offset : Nat), offset = 0 ∨ offset % 4 ≠ 0 ∨ 0x3C < offset → s.readReg offset = 0

/-- R29 to R34: a configuration register written outside a decode reads back as written but for its reserved bits, and no other
register's storage changes. -/
def Obligations.ConfigurationReadsBackAsWritten : Prop :=
  ∀ (s : State) (offset : Nat) (mask value : Word), (offset, mask) ∈ configRegisters → s.busy = false →
    s.agenda.head? = some (.host (.writeReg offset value)) →
    ∃ t, step s = .next t ∧ t.readReg offset = value &&& mask ∧
      (∀ p ∈ configRegisters, p.1 ≠ offset → t.readReg p.1 = s.readReg p.1) ∧
      t = { s.beginStep with cfg := t.cfg }

/-- R72, R75, R76 and R83: an IN byte, a palette entry and a transparency byte written outside a decode read back, and no other
unit changes. -/
def Obligations.InputMemoriesReadBackAsWritten : Prop :=
  ∀ s : State, s.busy = false →
    (∀ k v, s.agenda.head? = some (.host (.writeIn k v)) → k < s.caps.inBytes →
      ∃ t, step s = .next t ∧ t.readIn k = v ∧ (∀ j, j ≠ k → cellGet t.inMem j = cellGet s.inMem j) ∧
        t = { s.beginStep with inMem := t.inMem }) ∧
    (∀ k e, s.agenda.head? = some (.host (.writePlte k e)) → k < 256 →
      ∃ t, step s = .next t ∧ t.readPlte k = e ∧ (∀ j, j ≠ k → cellGet t.plte j = cellGet s.plte j) ∧
        t = { s.beginStep with plte := t.plte }) ∧
    (∀ k v, s.agenda.head? = some (.host (.writeTrns k v)) → k < 256 →
      ∃ t, step s = .next t ∧ t.readTrns k = v ∧ (∀ j, j ≠ k → cellGet t.trns j = cellGet s.trns j) ∧
        t = { s.beginStep with trns := t.trns })

/-- R23, R24 and R100 for STATUS, R36 with the codes of R97 for RASTER_INFO, R38 for DBG_POS, every field and the reserved ones
too; R37 and R39 for the registers that read one value. That DBG_BYTE reads 0 after InvalidFilterType, whatever LBYTE keeps, is the
model's reading of R39 with R299 (log entry 21). -/
def Obligations.ReadOnlyRegistersReadTheirState : Prop :=
  ∀ s : State,
    let v := s.readReg 0x04
    let r := s.readReg 0x24
    let d := s.readReg 0x30
    v.extractLsb' 0 2 = (match s.fsm with
      | .idle => 0 | .done => 2 | .error => 3
      | .awaitingRow | .unfilteringRow | .rowComplete | .passComplete => 1) ∧
    v.extractLsb' 2 6 = 0 ∧ v.extractLsb' 8 8 = s.errCode ∧
    v.extractLsb' 16 2 = (match s.cmdResult with
      | .accepted => 0 | .refusedState => 1 | .refusedAdapter => 2 | .undefined => 3) ∧
    v.extractLsb' 18 6 = 0 ∧ v.getLsbD 24 = s.busyWr ∧ v.getLsbD 25 = s.convValid ∧ v.getLsbD 26 = s.convFmt ∧
    v.extractLsb' 27 5 = 0 ∧
    r.extractLsb' 0 3 = (match s.run.kind with
      | .gray8 => 0 | .gray16 => 1 | .rgb8 => 2 | .rgb16 => 3 | .ga8 => 4 | .ga16 => 5 | .rgba8 => 6 | .rgba16 => 7) ∧
    r.extractLsb' 3 5 = 0 ∧ r.getLsbD 8 = decide (s.fsm = .done) ∧
    r.extractLsb' 9 7 = 0 ∧ r.extractLsb' 16 8 = s.run.bd ∧ r.extractLsb' 24 8 = s.run.ct ∧
    d.extractLsb' 0 3 = (match s.fsm with
      | .idle => 0 | .awaitingRow => 1 | .unfilteringRow => 2 | .rowComplete => 3 | .passComplete => 4 | .done => 5
      | .error => 6) ∧
    d.getLsbD 3 = false ∧ d.extractLsb' 4 3 = s.pos.pass ∧ d.getLsbD 7 = false ∧ d.extractLsb' 8 3 = s.pos.ftype ∧
    d.getLsbD 11 = false ∧ d.getLsbD 12 = s.pos.hasPrior ∧ d.extractLsb' 13 19 = 0 ∧
    s.readReg 0x28 = s.run.w ∧ s.readReg 0x2C = s.run.h ∧ s.readReg 0x34 = s.pos.lrow ∧
    s.readReg 0x38 = (if s.fsm = .error ∧ s.errCode = 10 then 0 else s.pos.lbyte) ∧ s.readReg 0x3C = s.pos.inPtr

/-- R79: a read returns a value and has no side effect; reading OUT at DONE gives the element's channels in order (R73), and
reading CONV while CONV_VALID the element a conversion wrote (R74). -/
def Obligations.ReadsHaveNoSideEffect : Prop :=
  (∀ (s : State) (a : HostAction) (v : ReadValue), s.agenda.head? = some (.host a) → s.beginStep.readValue? a = some v →
    step s = .next { s.beginStep with lastRead := some v }) ∧
  (∀ (s : State) (pix : Nat), s.fsm = .done → pix < s.pixelCount → ∀ ch : Fin 4, ch.val < s.run.kind.channelCount →
    (s.readOut pix).length = s.run.kind.channelCount ∧ (s.readOut pix)[ch.val]? = some (s.outChannel pix ch)) ∧
  ∀ (s : State) (pix : Nat) (e : Rgba), s.convValid = true → pix < s.pixelCount → cellGet s.conv pix = some e →
    s.readConv pix = e

/-! ## Errors and reset (`60_exceptions.md`, `70_reset_and_hazards.md`) -/

/-- R290 and R298: an error arises only in START, in AwaitingRow with code 10 and in UnfilteringRow with code 11; its entry
leaves no valid conversion and no known unit of OUT and CONV, and keeps the inputs. -/
def Obligations.ErrorsAriseInTheirThreePlaces : Prop :=
  ∀ s t : State, s.Sound → step s = .next t → s.fsm ≠ .error → t.fsm = .error →
    ((s.busy = false ∧ (∃ value, s.commandNext value ∧ decodeCommand value = .ok .start) ∧ t.errCode ∈ [5, 6, 7, 9, 12]) ∨
     (s.engineNext ∧ s.fsm = .awaitingRow ∧ t.errCode = 10 ∧ t.run = s.run ∧ t.geo = s.geo) ∨
     (s.engineNext ∧ s.fsm = .unfilteringRow ∧ t.errCode = 11 ∧ t.run = s.run ∧ t.geo = s.geo)) ∧
    t.convValid = false ∧ t.convFmt = false ∧
    (∀ a, cellGet t.out a = none) ∧ (∀ a, cellGet t.conv a = none) ∧ SameInputs s t

/-- R299: what the position registers name after a run-time error, an illegal selector with row byte index 0 or the data byte whose
sample failed. The position itself stays (R298); that LBYTE does so after an illegal selector while DBG_BYTE reads 0 is how the
model reads R162 and R298 with R299 and R39 (log entry 21), and that HAS_PRIOR stays is the model's choice (log entry 11). -/
def Obligations.RunTimeErrorsNameTheirByte : Prop :=
  ∀ s t : State, s.Sound → step s = .next t → s.busy = true → t.fsm = .error →
    t.pos = s.pos ∧ (t.readReg 0x30).extractLsb' 0 3 = 6 ∧ t.readReg 0x34 = s.pos.lrow ∧ t.readReg 0x3C = s.pos.inPtr ∧
    (t.errCode = 10 → t.readReg 0x38 = 0 ∧ 4 < (s.beginStep.inByte s.pos.inPtr.toNat).toNat) ∧
    (t.errCode = 11 → t.readReg 0x38 = s.pos.lbyte) ∧
    (t.errCode = 10 ∨ t.errCode = 11)

/-- R301: only START, RELEASE and reset leave the error state, and until then the code stays. -/
def Obligations.ErrorIsSticky : Prop :=
  ∀ s t : State, s.fsm = .error → step s = .next t →
    (t.fsm = .error ∧ t.errCode = s.errCode) ∨ s.agenda.head? = some .reset ∨
    ∃ value, s.commandNext value ∧ (decodeCommand value = .ok .start ∨ decodeCommand value = .ok .release)

/-- R320 with the values of R48: reset in any state. The storage, the agenda, the draw counter and what the host has read are
no part of it (log entry 17). -/
def Obligations.ResetGivesTheResetValues : Prop :=
  ∀ s : State, s.agenda.head? = some .reset →
    ∃ t, step s = .next t ∧ t.fsm = .idle ∧ t.errCode = 0 ∧ t.cmdResult = .accepted ∧ t.busyWr = false ∧
      t.convValid = false ∧ t.convFmt = false ∧ t.cfg = CfgRegs.zero ∧ t.run = RunRegs.zero ∧ t.pos = Position.zero ∧
      t.geo = GeoRegs.zero ∧
      t.inMem = [] ∧ t.plte = [] ∧ t.trns = [] ∧ t.cur = [] ∧ t.prior = [] ∧ t.out = [] ∧ t.conv = [] ∧
      (∀ offset, t.readReg offset = 0) ∧ t.caps = s.caps

/-! ## The whole machine -/

/-- The state after reset meets the invariants (its memories list nothing, its registers are those of R48). -/
def Obligations.ResetStateIsSound : Prop :=
  State.reset.Sound ∧ State.reset.RasterTrue

/-- Every step, of the engine, the host or reset, keeps the invariant: the memories' form, the status fields against FSM, the
latched configuration and the position of a running decode, and CONV, which lists exactly the raster while CONV_VALID (R28). -/
def Obligations.EveryStepKeepsSoundness : Prop :=
  ∀ s t : State, s.Sound → step s = .next t → t.Sound

/-- A sound machine never stops: every step answers a next state, whatever the agenda holds. -/
def Obligations.SoundStatesNeverStop : Prop :=
  ∀ s : State, s.Sound → ∃ t, step s = .next t

/-- R330 with the count of R329: the engine alone ends an accepted decode in Done or Error within that many steps. -/
def Obligations.EveryDecodeEndsInTime : Prop :=
  ∀ s : State, s.Sound → s.busy = false → s.agenda = [.host (.writeReg 0 1)] →
    ∃ t, step s = .next t ∧ t.cmdResult = .accepted ∧
      ∃ k, k ≤ decodeSteps s.cfg ∧ ∃ u : State, core.run k t = .next u ∧ (u.fsm = .done ∨ u.fsm = .error)

/-- R169, as an invariant: OUT lists exactly the channels the walk has emitted. -/
def Obligations.EveryStepKeepsTheRasterTrue : Prop :=
  ∀ s t : State, s.Sound → s.RasterTrue → step s = .next t → t.RasterTrue

/-- R169: no engine step changes a channel that the decode has written before. -/
def Obligations.NoChannelIsWrittenTwice : Prop :=
  ∀ s t : State, s.Sound → s.RasterTrue → s.busy = true → step s = .next t → t.busy = true ∨ t.fsm = .done →
    ∀ a v, cellGet s.out a = some v → cellGet t.out a = some v

/-- R166 and R169: at Done every channel of every pixel is written, and nothing else is. -/
def Obligations.DoneRasterIsComplete : Prop :=
  ∀ s : State, s.RasterTrue → s.fsm = .done → ∀ (pix : Nat) (ch : Fin 4),
    (cellGet s.out (outSlot pix ch)).isSome = true ↔ pix < s.pixelCount ∧ ch.val < s.run.kind.channelCount

/-- R25 to R28, reset apart: CMD_RESULT changes only by a write to CMD; BUSYWR is set only by a dropped write and cleared only by
START and RELEASE outside a decode; ERR_CODE is written only on entry to Error and cleared only by START and RELEASE outside a
decode; in a sound state CONV_VALID and CONV_FMT are set only by an accepted CONVERT and cleared only by a refused adapter,
START and RELEASE. -/
def Obligations.StickyFlagsHaveTheirWriters : Prop :=
  ∀ s t : State, step s = .next t → s.agenda.head? ≠ some .reset →
    (t.cmdResult ≠ s.cmdResult → ∃ value, s.commandNext value) ∧
    (s.busyWr = false → t.busyWr = true → s.busy = true ∧ ∃ a, s.agenda.head? = some (.host a) ∧ a.inputWrite s.caps) ∧
    (s.busyWr = true → t.busyWr = false → s.busy = false ∧
      ∃ value, s.commandNext value ∧ (decodeCommand value = .ok .start ∨ decodeCommand value = .ok .release)) ∧
    (t.errCode ≠ s.errCode → (t.fsm = .error ∧ t.errCode ∈ raisedCodes) ∨
      (t.errCode = 0 ∧ s.busy = false ∧
        ∃ value, s.commandNext value ∧ (decodeCommand value = .ok .start ∨ decodeCommand value = .ok .release))) ∧
    (s.Sound → t.convValid ≠ s.convValid ∨ t.convFmt ≠ s.convFmt → ∃ value, s.commandNext value ∧
      ((s.busy = false ∧ (decodeCommand value = .ok .start ∨ decodeCommand value = .ok .release) ∧
          t.convValid = false ∧ t.convFmt = false) ∨
       (s.fsm = .done ∧ (decodeCommand value = .ok .convertRgba8 ∨ decodeCommand value = .ok .convertRgba16) ∧
          ((t.cmdResult = .accepted ∧ t.convValid = true ∧
              t.convFmt = decide (decodeCommand value = .ok .convertRgba16)) ∨
           (t.cmdResult = .refusedAdapter ∧ t.convValid = false ∧ t.convFmt = false)))))
end

