-- ==== Sys2Proof/Laws/Decode.lean ====
section
/-! SUPPORT. The decoder answers instructions of the word's own format, found in the table. -/

namespace Sys2Proof

theorem opcodeRows_format (f : Format) : ∀ r ∈ opcodeRows f, r.instr.format = f := by
  cases f <;> decide

theorem decode_eq_ok {c : CodeWord} {i : Instr} (h : decode c = .ok i) :
    c.wellFormed = true ∧ ∃ r ∈ opcodeRows c.format, rowMatches c.bits r = true ∧ r.instr = i := by
  unfold decode at h
  split at h
  · split at h
    · rename_i hw _ r hr
      exact ⟨hw, r, List.mem_of_find?_eq_some hr, List.find?_some hr, Except.ok.inj h⟩
    · cases h
  · cases h

theorem decode_format {c : CodeWord} {i : Instr} (h : decode c = .ok i) : i.format = c.format := by
  obtain ⟨-, r, hr, -, rfl⟩ := decode_eq_ok h
  exact opcodeRows_format _ r hr

/-- No two rows of a format overlap: a word that matches two rows would differ from itself on a bit both fix. -/
theorem opcodeRows_disjoint (f : Format) :
    (opcodeRows f).Pairwise fun r q => r.pattern &&& q.mask ≠ q.pattern &&& r.mask := by
  cases f <;> decide

end Sys2Proof
end

