-- ==== Sys2Proof/Laws/Geometry.lean ====
section
/-! SUPPORT. The laws of the pass geometry and of the formats, and what an accepted configuration is. -/

namespace Sys2Proof.Machine

/-! ## Pass geometry -/

theorem lt_cdiv_iff (n d k : Nat) (hd : 0 < d) : k < cdiv n d ↔ k * d < n := by
  unfold cdiv
  rw [Nat.lt_div_iff_mul_lt hd]
  constructor <;> intro h <;> omega

theorem passGeometry_pos (q : Nat) : 0 < (passGeometry q).dx ∧ 0 < (passGeometry q).dy := by
  unfold passGeometry; split <;> simp

theorem cdiv_le (n d : Nat) (hd : 0 < d) : cdiv n d ≤ n := by
  by_contra hc
  have h1 := (lt_cdiv_iff n d n hd).1 (by omega)
  have h2 : n * 1 ≤ n * d := Nat.mul_le_mul_left _ hd
  omega

theorem passRows_le (q h : Nat) : passRows q h ≤ h := by
  unfold passRows
  split
  · exact Nat.le_trans (cdiv_le _ _ (passGeometry_pos q).2) (Nat.sub_le _ _)
  · exact Nat.zero_le _

theorem passCols_le (q w : Nat) : passCols q w ≤ w := by
  unfold passCols
  split
  · exact Nat.le_trans (cdiv_le _ _ (passGeometry_pos q).1) (Nat.sub_le _ _)
  · exact Nat.zero_le _

theorem GeoRegs.ofPass_prows {q w h pb : Nat} (hh : h < 2 ^ 32) : (GeoRegs.ofPass q w h pb).prows.toNat = passRows q h := by
  have := passRows_le q h
  simp only [GeoRegs.ofPass, BitVec.toNat_ofNat]
  exact Nat.mod_eq_of_lt (by omega)

theorem GeoRegs.ofPass_pcols {q w h pb : Nat} (hw : w < 2 ^ 32) : (GeoRegs.ofPass q w h pb).pcols.toNat = passCols q w := by
  have := passCols_le q w
  simp only [GeoRegs.ofPass, BitVec.toNat_ofNat]
  exact Nat.mod_eq_of_lt (by omega)

theorem passCols_zero (w : Nat) : passCols 0 w = w := by
  simp only [passCols, passGeometry, cdiv]
  split <;> omega

theorem passRows_zero (h : Nat) : passRows 0 h = h := by
  simp only [passRows, passGeometry, cdiv]
  split <;> omega

theorem passBytes_empty {q w h : Nat} (pb : Nat) (he : passNonEmpty q w h = false) : passBytes q w h pb = 0 := by
  simp [passBytes, he]

theorem rowBytes_pos {q w h pb : Nat} (hp : 0 < pb) (hn : passNonEmpty q w h = true) : 0 < rowBytes q w pb := by
  simp only [passNonEmpty, Bool.and_eq_true, decide_eq_true_eq] at hn
  rw [rowBytes, lt_cdiv_iff _ _ _ (by decide), Nat.zero_mul]
  exact Nat.mul_pos hn.1 hp

/-! ## Lists of passes -/

theorem laterPasses_pairwise (q : Nat) : (laterPasses q).Pairwise (· < ·) := by
  unfold laterPasses; exact List.Pairwise.filter _ (by decide)

theorem imagePasses_pairwise (il : Byte) : (imagePasses il).Pairwise (· < ·) := by
  unfold imagePasses; split
  · simp
  · exact laterPasses_pairwise 0

theorem mem_laterPasses {p q : Nat} : q ∈ laterPasses p ↔ p < q ∧ 1 ≤ q ∧ q ≤ 7 := by
  unfold laterPasses; simp; omega

theorem imagePasses_le {il : Byte} {q : Nat} (h : q ∈ imagePasses il) : q ≤ 7 := by
  unfold imagePasses at h; split at h
  · simp at h; omega
  · exact (mem_laterPasses.1 h).2.2

theorem filter_gt_image {il : Byte} (h : il ≠ 0) (p : Nat) : (imagePasses il).filter (p < ·) = laterPasses p := by
  unfold imagePasses laterPasses
  rw [if_neg h, List.filter_filter]
  apply List.filter_congr; intro x hx; simp; omega

theorem laterPasses_filter {p q : Nat} (h : p < q) : (laterPasses p).filter (q < ·) = laterPasses q := by
  unfold laterPasses
  rw [List.filter_filter]
  apply List.filter_congr; intro x hx; simp; omega

/-- A sum over passes of a function that is 0 on empty ones begins at the first pass that is not empty. -/
theorem sum_find {L : List Nat} (hs : L.Pairwise (· < ·)) {P : Nat → Bool} {f : Nat → Nat} (hf : ∀ x, P x = false → f x = 0)
    {q : Nat} (h : L.find? P = some q) : (L.map f).sum = f q + ((L.filter (q < ·)).map f).sum := by
  induction L with
  | nil => simp at h
  | cons a L ih =>
    have hc := List.pairwise_cons.1 hs
    by_cases hp : P a = true
    · simp only [List.find?_cons_of_pos hp, Option.some.injEq] at h
      subst h
      have : List.filter (fun x => decide (a < x)) (a :: L) = L := by
        rw [List.filter_cons_of_neg (by simp)]
        exact List.filter_eq_self.2 (fun x hx => by simpa using hc.1 x hx)
      simp [this]
    · have hp : P a = false := by simpa using hp
      rw [List.find?_cons_of_neg (by simp [hp])] at h
      have hq := List.mem_of_find?_eq_some h
      have := hc.1 q hq
      rw [List.filter_cons_of_neg (by simp; omega)]
      simp [hf a hp, ih hc.2 h]

theorem sum_none {L : List Nat} {P : Nat → Bool} {f : Nat → Nat} (hf : ∀ x, P x = false → f x = 0)
    (h : L.find? P = none) : (L.map f).sum = 0 := by
  have := List.find?_eq_none.1 h
  apply List.sum_eq_zero
  intro x hx
  obtain ⟨y, hy, rfl⟩ := List.mem_map.1 hx
  exact hf y (by simpa using this y hy)

/-! ## Formats -/

/-- The legal formats as bytes (`30_encoding.md` R94). -/
def legalFormats : List (Byte × Byte) :=
  [(0, 1), (0, 2), (0, 4), (0, 8), (0, 16), (2, 8), (2, 16), (3, 1), (3, 2), (3, 4), (3, 8), (4, 8), (4, 16), (6, 8), (6, 16)]

theorem mem_legalFormats {ct bd : Byte} (h : legalFormat ct bd = true) : (ct, bd) ∈ legalFormats := by
  simp only [legalFormats, List.mem_cons, Prod.mk.injEq, ← BitVec.toNat_inj]
  unfold legalFormat permittedDepths at h
  split at h <;> simp_all

/-- A test that each of the 15 passes, every legal format passes. -/
theorem forall_legalFormat {test : Byte → Byte → Bool} (all : (legalFormats.all fun p => test p.1 p.2) = true) {ct bd : Byte}
    (h : legalFormat ct bd = true) : test ct bd = true :=
  List.all_eq_true.1 all _ (mem_legalFormats h)

theorem pixelBits_pos {ct bd : Byte} (h : legalFormat ct bd = true) : 0 < pixelBits ct bd :=
  of_decide_eq_true (forall_legalFormat (test := fun ct bd => decide (0 < pixelBits ct bd)) (by decide) h)

/-- What a configuration that passes every START check satisfies (`60_exceptions.md` R293 to R297). -/
structure CfgRegs.Accepted (c : CfgRegs) (caps : Capacity) : Prop where
  width : c.width.toNat ≠ 0
  height : c.height.toNat ≠ 0
  interlace : c.interlace.toNat ≤ 1
  format : legalFormat c.colorType c.bitDepth = true
  size32 : c.expectedSize ≤ 2 ^ 32 - 1
  sizeIn : c.expectedSize ≤ caps.inBytes
  pixels : c.width.toNat * c.height.toNat ≤ caps.pixels
  rows : c.rowsFit caps.rowBytes = true
  input : c.inLen.toNat = c.expectedSize

theorem CfgRegs.accepted_of {c : CfgRegs} {caps : Capacity} (h : c.startError caps = none) : c.Accepted caps := by
  unfold CfgRegs.startError at h
  split at h
  · cases h
  rename_i h1
  split at h
  · cases h
  split at h
  · cases h
  split at h
  · cases h
  rename_i h4
  split at h
  · cases h
  rename_i h5
  simp only [CfgRegs.headerOk, legalInterlace, Bool.not_eq_true, Bool.not_eq_false', Bool.and_eq_true, decide_eq_true_eq] at h1
  simp only [CfgRegs.fits, Bool.not_eq_true, Bool.not_eq_false', Bool.and_eq_true, decide_eq_true_eq] at h4
  exact ⟨h1.1.1.1, h1.1.1.2, h1.1.2, h1.2, h4.1.1.1, h4.1.1.2, h4.1.2, h4.2, not_not.1 h5⟩

end Sys2Proof.Machine
end

