-- ==== Sys2Proof/Laws/Memory.lean ====
section
/-! SUPPORT. The laws of memories: read after write, other units unchanged, the canonical form kept. -/

namespace Sys2Proof.Machine

variable {α : Type}

theorem cellGet_cellSet_same (m : List (Nat × α)) (a : Nat) (v : α) : cellGet (cellSet m a v) a = some v := by
  induction m with
  | nil => simp [cellSet, cellGet]
  | cons c m ih =>
    obtain ⟨k, w⟩ := c
    unfold cellSet
    split
    · simp [cellGet]
    · split
      · simp [cellGet]
      · simp only [cellGet]
        rw [if_neg (by omega)]
        exact ih

theorem cellGet_cellSet_other (m : List (Nat × α)) {a b : Nat} (v : α) (h : a ≠ b) :
    cellGet (cellSet m a v) b = cellGet m b := by
  induction m with
  | nil => simp [cellSet, cellGet, h]
  | cons c m ih =>
    obtain ⟨k, w⟩ := c
    unfold cellSet
    split
    · simp [cellGet, h]
    · split
      · subst_vars; simp [cellGet, h]
      · simp only [cellGet]
        split
        · rfl
        · exact ih

theorem cellGet_cellSet (m : List (Nat × α)) (a b : Nat) (v : α) :
    cellGet (cellSet m a v) b = if a = b then some v else cellGet m b := by
  split
  · subst_vars; exact cellGet_cellSet_same ..
  · exact cellGet_cellSet_other _ _ ‹_›

theorem mem_cellSet {m : List (Nat × α)} {a : Nat} {v : α} {c : Nat × α} (h : c ∈ cellSet m a v) : c = (a, v) ∨ c ∈ m := by
  induction m with
  | nil => simpa [cellSet] using h
  | cons d m ih =>
    obtain ⟨k, w⟩ := d
    unfold cellSet at h
    split at h
    · simpa using h
    · split at h
      · rcases List.mem_cons.1 h with h | h
        · exact .inl h
        · exact .inr (List.mem_cons_of_mem _ h)
      · rcases List.mem_cons.1 h with h | h
        · exact .inr (by simp [h])
        · exact (ih h).imp id (List.mem_cons_of_mem _)

/-- A write keeps the canonical form. -/
theorem cellSet_wf {size : Nat} {m : List (Nat × α)} {a : Nat} (v : α) (ha : a < size) (h : cellsWf size m) :
    cellsWf size (cellSet m a v) := by
  refine ⟨?_, fun c hc => (mem_cellSet hc).elim (fun e => e ▸ ha) (h.2 c)⟩
  have hp := h.1
  clear h
  induction m with
  | nil => simp [cellSet]
  | cons d m ih =>
    obtain ⟨k, w⟩ := d
    have hd := List.pairwise_cons.1 hp
    unfold cellSet
    split
    · refine List.pairwise_cons.2 ⟨fun c hc => ?_, hp⟩
      rcases List.mem_cons.1 hc with rfl | hc
      · assumption
      · have := hd.1 c hc; simp only at *; omega
    · split
      · subst_vars; exact List.pairwise_cons.2 ⟨hd.1, hd.2⟩
      · refine List.pairwise_cons.2 ⟨fun c hc => ?_, ih hd.2⟩
        rcases mem_cellSet hc with rfl | hc
        · simp only; omega
        · exact hd.1 c hc

/-- Copying a row keeps the canonical form. -/
theorem cellsCopyBelow_wf {size n : Nat} {src dst : List (Nat × α)} (hs : cellsWf size src) (hd : cellsWf size dst) :
    cellsWf size (cellsCopyBelow n src dst) := by
  refine ⟨List.pairwise_append.2 ⟨hs.1.filter _, hd.1.filter _, fun x hx y hy => ?_⟩, fun c hc => ?_⟩
  · have hx := (List.mem_filter.1 hx).2
    have hy := (List.mem_filter.1 hy).2
    simp only [decide_eq_true_eq] at hx hy
    omega
  · rcases List.mem_append.1 hc with hc | hc
    · exact hs.2 c (List.mem_filter.1 hc).1
    · exact hd.2 c (List.mem_filter.1 hc).1

theorem cellGet_eq_none {m : List (Nat × α)} {a : Nat} : cellGet m a = none ↔ ∀ c ∈ m, c.1 ≠ a := by
  induction m with
  | nil => simp [cellGet]
  | cons d m ih =>
    obtain ⟨k, w⟩ := d
    simp only [cellGet, List.forall_mem_cons]
    split
    · simp [*]
    · simp [*]

theorem cellGet_append (l m : List (Nat × α)) (a : Nat) : cellGet (l ++ m) a = (cellGet l a).or (cellGet m a) := by
  induction l with
  | nil => simp [cellGet]
  | cons d l ih =>
    obtain ⟨k, w⟩ := d
    simp only [List.cons_append, cellGet]
    split <;> simp [*]

theorem cellGet_filter (m : List (Nat × α)) (p : Nat → Bool) (a : Nat) :
    cellGet (m.filter fun c => p c.1) a = if p a then cellGet m a else none := by
  induction m with
  | nil => simp [cellGet]
  | cons d m ih =>
    obtain ⟨k, w⟩ := d
    by_cases hk : p k = true
    · rw [List.filter_cons_of_pos (by simpa using hk)]
      simp only [cellGet, ih]
      split
      · subst_vars; simp [hk]
      · rfl
    · rw [List.filter_cons_of_neg (by simpa using hk), ih]
      simp only [cellGet]
      by_cases hka : k = a
      · subst hka; simp [hk]
      · simp [hka]

/-- A row copy gives the source below the bound and leaves the rest. -/
theorem cellGet_cellsCopyBelow (n : Nat) (src dst : List (Nat × α)) (a : Nat) :
    cellGet (cellsCopyBelow n src dst) a = if a < n then cellGet src a else cellGet dst a := by
  have h1 := cellGet_filter src (fun k => decide (k < n)) a
  have h2 := cellGet_filter dst (fun k => decide (n ≤ k)) a
  rw [cellsCopyBelow, cellGet_append, h1, h2]
  by_cases h : a < n
  · have : ¬ n ≤ a := by omega
    simp [h, this]
  · have : n ≤ a := by omega
    simp [h, this]

/-! ## OUT slots -/

theorem outSlot_inj {p q : Nat} {c d : Fin 4} (h : outSlot p c = outSlot q d) : p = q ∧ c = d := by
  have := c.isLt
  have := d.isLt
  unfold outSlot at h
  exact ⟨by omega, Fin.ext (by omega)⟩

theorem outSlot_div (p : Nat) (c : Fin 4) : outSlot p c / 4 = p := by
  unfold outSlot; omega

theorem outSlot_mod (p : Nat) (c : Fin 4) : outSlot p c % 4 = c.val := by
  unfold outSlot; omega

theorem outWrites_wf {size : Nat} {out : List (Nat × Half)} {pix : Nat} (ws : List (Fin 4 × Half)) (hp : pix < size)
    (h : cellsWf (4 * size) out) : cellsWf (4 * size) (outWrites out pix ws) := by
  induction ws generalizing out with
  | nil => exact h
  | cons w ws ih => exact ih (cellSet_wf _ (by have := w.1.isLt; unfold outSlot; omega) h)

/-- Writing one element leaves every slot of the others. -/
theorem cellGet_outWrites_other (out : List (Nat × Half)) (pix : Nat) (ws : List (Fin 4 × Half)) {a : Nat} (h : a / 4 ≠ pix) :
    cellGet (outWrites out pix ws) a = cellGet out a := by
  induction ws generalizing out with
  | nil => rfl
  | cons w ws ih =>
    rw [outWrites, ih, cellGet_cellSet_other]
    intro e
    exact h (e ▸ outSlot_div pix w.1)

theorem mem_outWrites {out : List (Nat × Half)} {pix : Nat} {ws : List (Fin 4 × Half)} {c : Nat × Half}
    (h : c ∈ outWrites out pix ws) : c ∈ out ∨ ∃ w ∈ ws, c = (outSlot pix w.1, w.2) := by
  induction ws generalizing out with
  | nil => exact .inl h
  | cons w ws ih =>
    rcases ih h with h | ⟨x, hx, rfl⟩
    · rcases mem_cellSet h with h | h
      · exact .inr ⟨w, by simp, h⟩
      · exact .inl h
    · exact .inr ⟨x, by simp [hx], rfl⟩

/-- A slot is listed afterwards exactly if it was, or one of the channels written. -/
theorem isSome_outWrites (out : List (Nat × Half)) (pix : Nat) (ws : List (Fin 4 × Half)) (a : Nat) :
    (cellGet (outWrites out pix ws) a).isSome = true ↔
      (cellGet out a).isSome = true ∨ ∃ w ∈ ws, outSlot pix w.1 = a := by
  induction ws generalizing out with
  | nil => simp [outWrites]
  | cons w ws ih =>
    rw [outWrites, ih, cellGet_cellSet]
    by_cases h : outSlot pix w.1 = a
    · simp [h]
    · simp [h]

/-! ## Reset -/

/-- After reset every memory has the canonical form. -/
theorem Memory.wf_reset : Memory.wf State.reset := by
  simp [Memory.wf, cellsWf, State.reset, State.resetWith]

end Sys2Proof.Machine
end

