-- ==== Sys2Proof/Laws/State.lean ====
section
/-! SUPPORT. One lemma per field of State and per named update of it: what the field is afterwards. -/

namespace Sys2Proof.Machine

variable (s : State)

/-! ## State.beginStep -/

@[simp] theorem State.beginStep_caps : s.beginStep.caps = s.caps := rfl
@[simp] theorem State.beginStep_fsm : s.beginStep.fsm = s.fsm := rfl
@[simp] theorem State.beginStep_errCode : s.beginStep.errCode = s.errCode := rfl
@[simp] theorem State.beginStep_cmdResult : s.beginStep.cmdResult = s.cmdResult := rfl
@[simp] theorem State.beginStep_busyWr : s.beginStep.busyWr = s.busyWr := rfl
@[simp] theorem State.beginStep_convValid : s.beginStep.convValid = s.convValid := rfl
@[simp] theorem State.beginStep_convFmt : s.beginStep.convFmt = s.convFmt := rfl
@[simp] theorem State.beginStep_cfg : s.beginStep.cfg = s.cfg := rfl
@[simp] theorem State.beginStep_run : s.beginStep.run = s.run := rfl
@[simp] theorem State.beginStep_geo : s.beginStep.geo = s.geo := rfl
@[simp] theorem State.beginStep_pos : s.beginStep.pos = s.pos := rfl
@[simp] theorem State.beginStep_inMem : s.beginStep.inMem = s.inMem := rfl
@[simp] theorem State.beginStep_plte : s.beginStep.plte = s.plte := rfl
@[simp] theorem State.beginStep_trns : s.beginStep.trns = s.trns := rfl
@[simp] theorem State.beginStep_cur : s.beginStep.cur = s.cur := rfl
@[simp] theorem State.beginStep_prior : s.beginStep.prior = s.prior := rfl
@[simp] theorem State.beginStep_out : s.beginStep.out = s.out := rfl
@[simp] theorem State.beginStep_conv : s.beginStep.conv = s.conv := rfl
@[simp] theorem State.beginStep_samples : s.beginStep.samples = s.samples := rfl
@[simp] theorem State.beginStep_agenda : s.beginStep.agenda = s.agenda.tail := rfl
@[simp] theorem State.beginStep_lastRead : s.beginStep.lastRead = s.lastRead := rfl
@[simp] theorem State.beginStep_tick : s.beginStep.tick = s.tick + 1 := rfl

/-! ## State.raise -/

@[simp] theorem State.raise_caps (e : DecodeError) : (s.raise e).caps = s.caps := rfl
@[simp] theorem State.raise_fsm (e : DecodeError) : (s.raise e).fsm = .error := rfl
@[simp] theorem State.raise_errCode (e : DecodeError) : (s.raise e).errCode = e.code := rfl
@[simp] theorem State.raise_cmdResult (e : DecodeError) : (s.raise e).cmdResult = s.cmdResult := rfl
@[simp] theorem State.raise_busyWr (e : DecodeError) : (s.raise e).busyWr = s.busyWr := rfl
@[simp] theorem State.raise_convValid (e : DecodeError) : (s.raise e).convValid = false := rfl
@[simp] theorem State.raise_convFmt (e : DecodeError) : (s.raise e).convFmt = false := rfl
@[simp] theorem State.raise_cfg (e : DecodeError) : (s.raise e).cfg = s.cfg := rfl
@[simp] theorem State.raise_run (e : DecodeError) : (s.raise e).run = s.run := rfl
@[simp] theorem State.raise_geo (e : DecodeError) : (s.raise e).geo = s.geo := rfl
@[simp] theorem State.raise_pos (e : DecodeError) : (s.raise e).pos = s.pos := rfl
@[simp] theorem State.raise_inMem (e : DecodeError) : (s.raise e).inMem = s.inMem := rfl
@[simp] theorem State.raise_plte (e : DecodeError) : (s.raise e).plte = s.plte := rfl
@[simp] theorem State.raise_trns (e : DecodeError) : (s.raise e).trns = s.trns := rfl
@[simp] theorem State.raise_cur (e : DecodeError) : (s.raise e).cur = [] := rfl
@[simp] theorem State.raise_prior (e : DecodeError) : (s.raise e).prior = [] := rfl
@[simp] theorem State.raise_out (e : DecodeError) : (s.raise e).out = [] := rfl
@[simp] theorem State.raise_conv (e : DecodeError) : (s.raise e).conv = [] := rfl
@[simp] theorem State.raise_samples (e : DecodeError) : (s.raise e).samples = [] := rfl
@[simp] theorem State.raise_agenda (e : DecodeError) : (s.raise e).agenda = s.agenda := rfl
@[simp] theorem State.raise_lastRead (e : DecodeError) : (s.raise e).lastRead = s.lastRead := rfl
@[simp] theorem State.raise_tick (e : DecodeError) : (s.raise e).tick = s.tick := rfl

/-! ## State.rejectSelector -/

@[simp] theorem State.rejectSelector_caps : s.rejectSelector.caps = s.caps := rfl
@[simp] theorem State.rejectSelector_fsm : s.rejectSelector.fsm = .error := rfl
@[simp] theorem State.rejectSelector_errCode : s.rejectSelector.errCode = 10 := rfl
@[simp] theorem State.rejectSelector_cmdResult : s.rejectSelector.cmdResult = s.cmdResult := rfl
@[simp] theorem State.rejectSelector_busyWr : s.rejectSelector.busyWr = s.busyWr := rfl
@[simp] theorem State.rejectSelector_convValid : s.rejectSelector.convValid = false := rfl
@[simp] theorem State.rejectSelector_convFmt : s.rejectSelector.convFmt = false := rfl
@[simp] theorem State.rejectSelector_cfg : s.rejectSelector.cfg = s.cfg := rfl
@[simp] theorem State.rejectSelector_run : s.rejectSelector.run = s.run := rfl
@[simp] theorem State.rejectSelector_geo : s.rejectSelector.geo = s.geo := rfl
@[simp] theorem State.rejectSelector_pos : s.rejectSelector.pos = s.pos := rfl
@[simp] theorem State.rejectSelector_inMem : s.rejectSelector.inMem = s.inMem := rfl
@[simp] theorem State.rejectSelector_plte : s.rejectSelector.plte = s.plte := rfl
@[simp] theorem State.rejectSelector_trns : s.rejectSelector.trns = s.trns := rfl
@[simp] theorem State.rejectSelector_cur : s.rejectSelector.cur = [] := rfl
@[simp] theorem State.rejectSelector_prior : s.rejectSelector.prior = [] := rfl
@[simp] theorem State.rejectSelector_out : s.rejectSelector.out = [] := rfl
@[simp] theorem State.rejectSelector_conv : s.rejectSelector.conv = [] := rfl
@[simp] theorem State.rejectSelector_samples : s.rejectSelector.samples = [] := rfl
@[simp] theorem State.rejectSelector_agenda : s.rejectSelector.agenda = s.agenda := rfl
@[simp] theorem State.rejectSelector_lastRead : s.rejectSelector.lastRead = s.lastRead := rfl
@[simp] theorem State.rejectSelector_tick : s.rejectSelector.tick = s.tick := rfl

/-! ## State.dropPreviousResult -/

@[simp] theorem State.dropPreviousResult_caps : s.dropPreviousResult.caps = s.caps := rfl
@[simp] theorem State.dropPreviousResult_fsm : s.dropPreviousResult.fsm = s.fsm := rfl
@[simp] theorem State.dropPreviousResult_errCode : s.dropPreviousResult.errCode = 0 := rfl
@[simp] theorem State.dropPreviousResult_cmdResult : s.dropPreviousResult.cmdResult = s.cmdResult := rfl
@[simp] theorem State.dropPreviousResult_busyWr : s.dropPreviousResult.busyWr = false := rfl
@[simp] theorem State.dropPreviousResult_convValid : s.dropPreviousResult.convValid = false := rfl
@[simp] theorem State.dropPreviousResult_convFmt : s.dropPreviousResult.convFmt = false := rfl
@[simp] theorem State.dropPreviousResult_cfg : s.dropPreviousResult.cfg = s.cfg := rfl
@[simp] theorem State.dropPreviousResult_run : s.dropPreviousResult.run = RunRegs.zero := rfl
@[simp] theorem State.dropPreviousResult_geo : s.dropPreviousResult.geo = GeoRegs.zero := rfl
@[simp] theorem State.dropPreviousResult_pos : s.dropPreviousResult.pos = Position.zero := rfl
@[simp] theorem State.dropPreviousResult_inMem : s.dropPreviousResult.inMem = s.inMem := rfl
@[simp] theorem State.dropPreviousResult_plte : s.dropPreviousResult.plte = s.plte := rfl
@[simp] theorem State.dropPreviousResult_trns : s.dropPreviousResult.trns = s.trns := rfl
@[simp] theorem State.dropPreviousResult_cur : s.dropPreviousResult.cur = s.cur := rfl
@[simp] theorem State.dropPreviousResult_prior : s.dropPreviousResult.prior = s.prior := rfl
@[simp] theorem State.dropPreviousResult_out : s.dropPreviousResult.out = [] := rfl
@[simp] theorem State.dropPreviousResult_conv : s.dropPreviousResult.conv = [] := rfl
@[simp] theorem State.dropPreviousResult_samples : s.dropPreviousResult.samples = s.samples := rfl
@[simp] theorem State.dropPreviousResult_agenda : s.dropPreviousResult.agenda = s.agenda := rfl
@[simp] theorem State.dropPreviousResult_lastRead : s.dropPreviousResult.lastRead = s.lastRead := rfl
@[simp] theorem State.dropPreviousResult_tick : s.dropPreviousResult.tick = s.tick := rfl

/-! ## State.enterPass -/

@[simp] theorem State.enterPass_caps (q : Nat) : (s.enterPass q).caps = s.caps := rfl
@[simp] theorem State.enterPass_fsm (q : Nat) : (s.enterPass q).fsm = s.fsm := rfl
@[simp] theorem State.enterPass_errCode (q : Nat) : (s.enterPass q).errCode = s.errCode := rfl
@[simp] theorem State.enterPass_cmdResult (q : Nat) : (s.enterPass q).cmdResult = s.cmdResult := rfl
@[simp] theorem State.enterPass_busyWr (q : Nat) : (s.enterPass q).busyWr = s.busyWr := rfl
@[simp] theorem State.enterPass_convValid (q : Nat) : (s.enterPass q).convValid = s.convValid := rfl
@[simp] theorem State.enterPass_convFmt (q : Nat) : (s.enterPass q).convFmt = s.convFmt := rfl
@[simp] theorem State.enterPass_cfg (q : Nat) : (s.enterPass q).cfg = s.cfg := rfl
@[simp] theorem State.enterPass_run (q : Nat) : (s.enterPass q).run = s.run := rfl
@[simp] theorem State.enterPass_geo (q : Nat) : (s.enterPass q).geo = GeoRegs.ofPass q s.run.w.toNat s.run.h.toNat s.run.pbits := rfl
@[simp] theorem State.enterPass_pos (q : Nat) : (s.enterPass q).pos = { s.pos with pass := BitVec.ofNat 3 q, lrow := 0, lbyte := 0, hasPrior := false } := rfl
@[simp] theorem State.enterPass_inMem (q : Nat) : (s.enterPass q).inMem = s.inMem := rfl
@[simp] theorem State.enterPass_plte (q : Nat) : (s.enterPass q).plte = s.plte := rfl
@[simp] theorem State.enterPass_trns (q : Nat) : (s.enterPass q).trns = s.trns := rfl
@[simp] theorem State.enterPass_cur (q : Nat) : (s.enterPass q).cur = s.cur := rfl
@[simp] theorem State.enterPass_prior (q : Nat) : (s.enterPass q).prior = s.prior := rfl
@[simp] theorem State.enterPass_out (q : Nat) : (s.enterPass q).out = s.out := rfl
@[simp] theorem State.enterPass_conv (q : Nat) : (s.enterPass q).conv = s.conv := rfl
@[simp] theorem State.enterPass_samples (q : Nat) : (s.enterPass q).samples = s.samples := rfl
@[simp] theorem State.enterPass_agenda (q : Nat) : (s.enterPass q).agenda = s.agenda := rfl
@[simp] theorem State.enterPass_lastRead (q : Nat) : (s.enterPass q).lastRead = s.lastRead := rfl
@[simp] theorem State.enterPass_tick (q : Nat) : (s.enterPass q).tick = s.tick := rfl

/-! ## State.enterDone -/

@[simp] theorem State.enterDone_caps : s.enterDone.caps = s.caps := rfl
@[simp] theorem State.enterDone_fsm : s.enterDone.fsm = .done := rfl
@[simp] theorem State.enterDone_errCode : s.enterDone.errCode = s.errCode := rfl
@[simp] theorem State.enterDone_cmdResult : s.enterDone.cmdResult = s.cmdResult := rfl
@[simp] theorem State.enterDone_busyWr : s.enterDone.busyWr = s.busyWr := rfl
@[simp] theorem State.enterDone_convValid : s.enterDone.convValid = s.convValid := rfl
@[simp] theorem State.enterDone_convFmt : s.enterDone.convFmt = s.convFmt := rfl
@[simp] theorem State.enterDone_cfg : s.enterDone.cfg = s.cfg := rfl
@[simp] theorem State.enterDone_run : s.enterDone.run = s.run := rfl
@[simp] theorem State.enterDone_geo : s.enterDone.geo = s.geo := rfl
@[simp] theorem State.enterDone_pos : s.enterDone.pos = s.pos := rfl
@[simp] theorem State.enterDone_inMem : s.enterDone.inMem = s.inMem := rfl
@[simp] theorem State.enterDone_plte : s.enterDone.plte = s.plte := rfl
@[simp] theorem State.enterDone_trns : s.enterDone.trns = s.trns := rfl
@[simp] theorem State.enterDone_cur : s.enterDone.cur = s.cur := rfl
@[simp] theorem State.enterDone_prior : s.enterDone.prior = s.prior := rfl
@[simp] theorem State.enterDone_out : s.enterDone.out = s.out := rfl
@[simp] theorem State.enterDone_conv : s.enterDone.conv = s.conv := rfl
@[simp] theorem State.enterDone_samples : s.enterDone.samples = s.samples := rfl
@[simp] theorem State.enterDone_agenda : s.enterDone.agenda = s.agenda := rfl
@[simp] theorem State.enterDone_lastRead : s.enterDone.lastRead = s.lastRead := rfl
@[simp] theorem State.enterDone_tick : s.enterDone.tick = s.tick := rfl

/-! ## State.takeSelector -/

@[simp] theorem State.takeSelector_caps (f : BitVec 3) : (s.takeSelector f).caps = s.caps := rfl
@[simp] theorem State.takeSelector_fsm (f : BitVec 3) : (s.takeSelector f).fsm = .unfilteringRow := rfl
@[simp] theorem State.takeSelector_errCode (f : BitVec 3) : (s.takeSelector f).errCode = s.errCode := rfl
@[simp] theorem State.takeSelector_cmdResult (f : BitVec 3) : (s.takeSelector f).cmdResult = s.cmdResult := rfl
@[simp] theorem State.takeSelector_busyWr (f : BitVec 3) : (s.takeSelector f).busyWr = s.busyWr := rfl
@[simp] theorem State.takeSelector_convValid (f : BitVec 3) : (s.takeSelector f).convValid = s.convValid := rfl
@[simp] theorem State.takeSelector_convFmt (f : BitVec 3) : (s.takeSelector f).convFmt = s.convFmt := rfl
@[simp] theorem State.takeSelector_cfg (f : BitVec 3) : (s.takeSelector f).cfg = s.cfg := rfl
@[simp] theorem State.takeSelector_run (f : BitVec 3) : (s.takeSelector f).run = s.run := rfl
@[simp] theorem State.takeSelector_geo (f : BitVec 3) : (s.takeSelector f).geo = s.geo := rfl
@[simp] theorem State.takeSelector_pos (f : BitVec 3) : (s.takeSelector f).pos = { s.pos with ftype := f, inPtr := s.pos.inPtr + 1, lbyte := 0 } := rfl
@[simp] theorem State.takeSelector_inMem (f : BitVec 3) : (s.takeSelector f).inMem = s.inMem := rfl
@[simp] theorem State.takeSelector_plte (f : BitVec 3) : (s.takeSelector f).plte = s.plte := rfl
@[simp] theorem State.takeSelector_trns (f : BitVec 3) : (s.takeSelector f).trns = s.trns := rfl
@[simp] theorem State.takeSelector_cur (f : BitVec 3) : (s.takeSelector f).cur = s.cur := rfl
@[simp] theorem State.takeSelector_prior (f : BitVec 3) : (s.takeSelector f).prior = s.prior := rfl
@[simp] theorem State.takeSelector_out (f : BitVec 3) : (s.takeSelector f).out = s.out := rfl
@[simp] theorem State.takeSelector_conv (f : BitVec 3) : (s.takeSelector f).conv = s.conv := rfl
@[simp] theorem State.takeSelector_samples (f : BitVec 3) : (s.takeSelector f).samples = s.samples := rfl
@[simp] theorem State.takeSelector_agenda (f : BitVec 3) : (s.takeSelector f).agenda = s.agenda := rfl
@[simp] theorem State.takeSelector_lastRead (f : BitVec 3) : (s.takeSelector f).lastRead = s.lastRead := rfl
@[simp] theorem State.takeSelector_tick (f : BitVec 3) : (s.takeSelector f).tick = s.tick := rfl

/-! ## State.completeRow -/

@[simp] theorem State.completeRow_caps : s.completeRow.caps = s.caps := rfl
@[simp] theorem State.completeRow_fsm : s.completeRow.fsm = if s.pos.lrow.toNat + 1 < s.geo.prows.toNat then .awaitingRow else .passComplete := rfl
@[simp] theorem State.completeRow_errCode : s.completeRow.errCode = s.errCode := rfl
@[simp] theorem State.completeRow_cmdResult : s.completeRow.cmdResult = s.cmdResult := rfl
@[simp] theorem State.completeRow_busyWr : s.completeRow.busyWr = s.busyWr := rfl
@[simp] theorem State.completeRow_convValid : s.completeRow.convValid = s.convValid := rfl
@[simp] theorem State.completeRow_convFmt : s.completeRow.convFmt = s.convFmt := rfl
@[simp] theorem State.completeRow_cfg : s.completeRow.cfg = s.cfg := rfl
@[simp] theorem State.completeRow_run : s.completeRow.run = s.run := rfl
@[simp] theorem State.completeRow_geo : s.completeRow.geo = s.geo := rfl
@[simp] theorem State.completeRow_pos : s.completeRow.pos = { s.pos with hasPrior := true, lrow := s.pos.lrow + 1 } := rfl
@[simp] theorem State.completeRow_inMem : s.completeRow.inMem = s.inMem := rfl
@[simp] theorem State.completeRow_plte : s.completeRow.plte = s.plte := rfl
@[simp] theorem State.completeRow_trns : s.completeRow.trns = s.trns := rfl
@[simp] theorem State.completeRow_cur : s.completeRow.cur = s.cur := rfl
@[simp] theorem State.completeRow_prior : s.completeRow.prior = cellsCopyBelow s.geo.rb s.cur s.prior := rfl
@[simp] theorem State.completeRow_out : s.completeRow.out = s.out := rfl
@[simp] theorem State.completeRow_conv : s.completeRow.conv = s.conv := rfl
@[simp] theorem State.completeRow_samples : s.completeRow.samples = s.samples := rfl
@[simp] theorem State.completeRow_agenda : s.completeRow.agenda = s.agenda := rfl
@[simp] theorem State.completeRow_lastRead : s.completeRow.lastRead = s.lastRead := rfl
@[simp] theorem State.completeRow_tick : s.completeRow.tick = s.tick := rfl

/-! ## State.latchRun -/

@[simp] theorem State.latchRun_caps : s.latchRun.caps = s.caps := rfl
@[simp] theorem State.latchRun_fsm : s.latchRun.fsm = s.fsm := rfl
@[simp] theorem State.latchRun_errCode : s.latchRun.errCode = s.errCode := rfl
@[simp] theorem State.latchRun_cmdResult : s.latchRun.cmdResult = s.cmdResult := rfl
@[simp] theorem State.latchRun_busyWr : s.latchRun.busyWr = s.busyWr := rfl
@[simp] theorem State.latchRun_convValid : s.latchRun.convValid = s.convValid := rfl
@[simp] theorem State.latchRun_convFmt : s.latchRun.convFmt = s.convFmt := rfl
@[simp] theorem State.latchRun_cfg : s.latchRun.cfg = s.cfg := rfl
@[simp] theorem State.latchRun_run : s.latchRun.run = s.cfg.latched := rfl
@[simp] theorem State.latchRun_geo : s.latchRun.geo = s.geo := rfl
@[simp] theorem State.latchRun_pos : s.latchRun.pos = s.pos := rfl
@[simp] theorem State.latchRun_inMem : s.latchRun.inMem = s.inMem := rfl
@[simp] theorem State.latchRun_plte : s.latchRun.plte = s.plte := rfl
@[simp] theorem State.latchRun_trns : s.latchRun.trns = s.trns := rfl
@[simp] theorem State.latchRun_cur : s.latchRun.cur = s.cur := rfl
@[simp] theorem State.latchRun_prior : s.latchRun.prior = s.prior := rfl
@[simp] theorem State.latchRun_out : s.latchRun.out = s.out := rfl
@[simp] theorem State.latchRun_conv : s.latchRun.conv = s.conv := rfl
@[simp] theorem State.latchRun_samples : s.latchRun.samples = s.samples := rfl
@[simp] theorem State.latchRun_agenda : s.latchRun.agenda = s.agenda := rfl
@[simp] theorem State.latchRun_lastRead : s.latchRun.lastRead = s.lastRead := rfl
@[simp] theorem State.latchRun_tick : s.latchRun.tick = s.tick := rfl

/-! ## State.beginWalk -/

@[simp] theorem State.beginWalk_caps : s.beginWalk.caps = s.caps := rfl
@[simp] theorem State.beginWalk_fsm : s.beginWalk.fsm = .awaitingRow := rfl
@[simp] theorem State.beginWalk_errCode : s.beginWalk.errCode = s.errCode := rfl
@[simp] theorem State.beginWalk_cmdResult : s.beginWalk.cmdResult = s.cmdResult := rfl
@[simp] theorem State.beginWalk_busyWr : s.beginWalk.busyWr = s.busyWr := rfl
@[simp] theorem State.beginWalk_convValid : s.beginWalk.convValid = s.convValid := rfl
@[simp] theorem State.beginWalk_convFmt : s.beginWalk.convFmt = s.convFmt := rfl
@[simp] theorem State.beginWalk_cfg : s.beginWalk.cfg = s.cfg := rfl
@[simp] theorem State.beginWalk_run : s.beginWalk.run = s.run := rfl
@[simp] theorem State.beginWalk_geo : s.beginWalk.geo = GeoRegs.ofPass (firstPass s.run.il s.run.w.toNat s.run.h.toNat) s.run.w.toNat s.run.h.toNat s.run.pbits := rfl
@[simp] theorem State.beginWalk_pos : s.beginWalk.pos = { s.pos with inPtr := 0, pass := BitVec.ofNat 3 (firstPass s.run.il s.run.w.toNat s.run.h.toNat), lrow := 0, lbyte := 0, hasPrior := false } := rfl
@[simp] theorem State.beginWalk_inMem : s.beginWalk.inMem = s.inMem := rfl
@[simp] theorem State.beginWalk_plte : s.beginWalk.plte = s.plte := rfl
@[simp] theorem State.beginWalk_trns : s.beginWalk.trns = s.trns := rfl
@[simp] theorem State.beginWalk_cur : s.beginWalk.cur = s.cur := rfl
@[simp] theorem State.beginWalk_prior : s.beginWalk.prior = s.prior := rfl
@[simp] theorem State.beginWalk_out : s.beginWalk.out = s.out := rfl
@[simp] theorem State.beginWalk_conv : s.beginWalk.conv = s.conv := rfl
@[simp] theorem State.beginWalk_samples : s.beginWalk.samples = s.samples := rfl
@[simp] theorem State.beginWalk_agenda : s.beginWalk.agenda = s.agenda := rfl
@[simp] theorem State.beginWalk_lastRead : s.beginWalk.lastRead = s.lastRead := rfl
@[simp] theorem State.beginWalk_tick : s.beginWalk.tick = s.tick := rfl

/-! ## State.withResult -/

@[simp] theorem State.withResult_caps (r : CmdResult) : (s.withResult r).caps = s.caps := rfl
@[simp] theorem State.withResult_fsm (r : CmdResult) : (s.withResult r).fsm = s.fsm := rfl
@[simp] theorem State.withResult_errCode (r : CmdResult) : (s.withResult r).errCode = s.errCode := rfl
@[simp] theorem State.withResult_cmdResult (r : CmdResult) : (s.withResult r).cmdResult = r := rfl
@[simp] theorem State.withResult_busyWr (r : CmdResult) : (s.withResult r).busyWr = s.busyWr := rfl
@[simp] theorem State.withResult_convValid (r : CmdResult) : (s.withResult r).convValid = s.convValid := rfl
@[simp] theorem State.withResult_convFmt (r : CmdResult) : (s.withResult r).convFmt = s.convFmt := rfl
@[simp] theorem State.withResult_cfg (r : CmdResult) : (s.withResult r).cfg = s.cfg := rfl
@[simp] theorem State.withResult_run (r : CmdResult) : (s.withResult r).run = s.run := rfl
@[simp] theorem State.withResult_geo (r : CmdResult) : (s.withResult r).geo = s.geo := rfl
@[simp] theorem State.withResult_pos (r : CmdResult) : (s.withResult r).pos = s.pos := rfl
@[simp] theorem State.withResult_inMem (r : CmdResult) : (s.withResult r).inMem = s.inMem := rfl
@[simp] theorem State.withResult_plte (r : CmdResult) : (s.withResult r).plte = s.plte := rfl
@[simp] theorem State.withResult_trns (r : CmdResult) : (s.withResult r).trns = s.trns := rfl
@[simp] theorem State.withResult_cur (r : CmdResult) : (s.withResult r).cur = s.cur := rfl
@[simp] theorem State.withResult_prior (r : CmdResult) : (s.withResult r).prior = s.prior := rfl
@[simp] theorem State.withResult_out (r : CmdResult) : (s.withResult r).out = s.out := rfl
@[simp] theorem State.withResult_conv (r : CmdResult) : (s.withResult r).conv = s.conv := rfl
@[simp] theorem State.withResult_samples (r : CmdResult) : (s.withResult r).samples = s.samples := rfl
@[simp] theorem State.withResult_agenda (r : CmdResult) : (s.withResult r).agenda = s.agenda := rfl
@[simp] theorem State.withResult_lastRead (r : CmdResult) : (s.withResult r).lastRead = s.lastRead := rfl
@[simp] theorem State.withResult_tick (r : CmdResult) : (s.withResult r).tick = s.tick := rfl

/-! ## State.undefinedCommand -/

@[simp] theorem State.undefinedCommand_caps : s.undefinedCommand.caps = s.caps := rfl
@[simp] theorem State.undefinedCommand_fsm : s.undefinedCommand.fsm = s.fsm := rfl
@[simp] theorem State.undefinedCommand_errCode : s.undefinedCommand.errCode = s.errCode := rfl
@[simp] theorem State.undefinedCommand_cmdResult : s.undefinedCommand.cmdResult = .undefined := rfl
@[simp] theorem State.undefinedCommand_busyWr : s.undefinedCommand.busyWr = s.busyWr := rfl
@[simp] theorem State.undefinedCommand_convValid : s.undefinedCommand.convValid = s.convValid := rfl
@[simp] theorem State.undefinedCommand_convFmt : s.undefinedCommand.convFmt = s.convFmt := rfl
@[simp] theorem State.undefinedCommand_cfg : s.undefinedCommand.cfg = s.cfg := rfl
@[simp] theorem State.undefinedCommand_run : s.undefinedCommand.run = s.run := rfl
@[simp] theorem State.undefinedCommand_geo : s.undefinedCommand.geo = s.geo := rfl
@[simp] theorem State.undefinedCommand_pos : s.undefinedCommand.pos = s.pos := rfl
@[simp] theorem State.undefinedCommand_inMem : s.undefinedCommand.inMem = s.inMem := rfl
@[simp] theorem State.undefinedCommand_plte : s.undefinedCommand.plte = s.plte := rfl
@[simp] theorem State.undefinedCommand_trns : s.undefinedCommand.trns = s.trns := rfl
@[simp] theorem State.undefinedCommand_cur : s.undefinedCommand.cur = s.cur := rfl
@[simp] theorem State.undefinedCommand_prior : s.undefinedCommand.prior = s.prior := rfl
@[simp] theorem State.undefinedCommand_out : s.undefinedCommand.out = s.out := rfl
@[simp] theorem State.undefinedCommand_conv : s.undefinedCommand.conv = s.conv := rfl
@[simp] theorem State.undefinedCommand_samples : s.undefinedCommand.samples = s.samples := rfl
@[simp] theorem State.undefinedCommand_agenda : s.undefinedCommand.agenda = s.agenda := rfl
@[simp] theorem State.undefinedCommand_lastRead : s.undefinedCommand.lastRead = s.lastRead := rfl
@[simp] theorem State.undefinedCommand_tick : s.undefinedCommand.tick = s.tick := rfl

/-! ## State.refuseAdapter -/

@[simp] theorem State.refuseAdapter_caps : s.refuseAdapter.caps = s.caps := rfl
@[simp] theorem State.refuseAdapter_fsm : s.refuseAdapter.fsm = s.fsm := rfl
@[simp] theorem State.refuseAdapter_errCode : s.refuseAdapter.errCode = s.errCode := rfl
@[simp] theorem State.refuseAdapter_cmdResult : s.refuseAdapter.cmdResult = .refusedAdapter := rfl
@[simp] theorem State.refuseAdapter_busyWr : s.refuseAdapter.busyWr = s.busyWr := rfl
@[simp] theorem State.refuseAdapter_convValid : s.refuseAdapter.convValid = false := rfl
@[simp] theorem State.refuseAdapter_convFmt : s.refuseAdapter.convFmt = false := rfl
@[simp] theorem State.refuseAdapter_cfg : s.refuseAdapter.cfg = s.cfg := rfl
@[simp] theorem State.refuseAdapter_run : s.refuseAdapter.run = s.run := rfl
@[simp] theorem State.refuseAdapter_geo : s.refuseAdapter.geo = s.geo := rfl
@[simp] theorem State.refuseAdapter_pos : s.refuseAdapter.pos = s.pos := rfl
@[simp] theorem State.refuseAdapter_inMem : s.refuseAdapter.inMem = s.inMem := rfl
@[simp] theorem State.refuseAdapter_plte : s.refuseAdapter.plte = s.plte := rfl
@[simp] theorem State.refuseAdapter_trns : s.refuseAdapter.trns = s.trns := rfl
@[simp] theorem State.refuseAdapter_cur : s.refuseAdapter.cur = s.cur := rfl
@[simp] theorem State.refuseAdapter_prior : s.refuseAdapter.prior = s.prior := rfl
@[simp] theorem State.refuseAdapter_out : s.refuseAdapter.out = s.out := rfl
@[simp] theorem State.refuseAdapter_conv : s.refuseAdapter.conv = s.conv := rfl
@[simp] theorem State.refuseAdapter_samples : s.refuseAdapter.samples = s.samples := rfl
@[simp] theorem State.refuseAdapter_agenda : s.refuseAdapter.agenda = s.agenda := rfl
@[simp] theorem State.refuseAdapter_lastRead : s.refuseAdapter.lastRead = s.lastRead := rfl
@[simp] theorem State.refuseAdapter_tick : s.refuseAdapter.tick = s.tick := rfl

/-! ## State.answer -/

@[simp] theorem State.answer_caps (v : ReadValue) : (s.answer v).caps = s.caps := rfl
@[simp] theorem State.answer_fsm (v : ReadValue) : (s.answer v).fsm = s.fsm := rfl
@[simp] theorem State.answer_errCode (v : ReadValue) : (s.answer v).errCode = s.errCode := rfl
@[simp] theorem State.answer_cmdResult (v : ReadValue) : (s.answer v).cmdResult = s.cmdResult := rfl
@[simp] theorem State.answer_busyWr (v : ReadValue) : (s.answer v).busyWr = s.busyWr := rfl
@[simp] theorem State.answer_convValid (v : ReadValue) : (s.answer v).convValid = s.convValid := rfl
@[simp] theorem State.answer_convFmt (v : ReadValue) : (s.answer v).convFmt = s.convFmt := rfl
@[simp] theorem State.answer_cfg (v : ReadValue) : (s.answer v).cfg = s.cfg := rfl
@[simp] theorem State.answer_run (v : ReadValue) : (s.answer v).run = s.run := rfl
@[simp] theorem State.answer_geo (v : ReadValue) : (s.answer v).geo = s.geo := rfl
@[simp] theorem State.answer_pos (v : ReadValue) : (s.answer v).pos = s.pos := rfl
@[simp] theorem State.answer_inMem (v : ReadValue) : (s.answer v).inMem = s.inMem := rfl
@[simp] theorem State.answer_plte (v : ReadValue) : (s.answer v).plte = s.plte := rfl
@[simp] theorem State.answer_trns (v : ReadValue) : (s.answer v).trns = s.trns := rfl
@[simp] theorem State.answer_cur (v : ReadValue) : (s.answer v).cur = s.cur := rfl
@[simp] theorem State.answer_prior (v : ReadValue) : (s.answer v).prior = s.prior := rfl
@[simp] theorem State.answer_out (v : ReadValue) : (s.answer v).out = s.out := rfl
@[simp] theorem State.answer_conv (v : ReadValue) : (s.answer v).conv = s.conv := rfl
@[simp] theorem State.answer_samples (v : ReadValue) : (s.answer v).samples = s.samples := rfl
@[simp] theorem State.answer_agenda (v : ReadValue) : (s.answer v).agenda = s.agenda := rfl
@[simp] theorem State.answer_lastRead (v : ReadValue) : (s.answer v).lastRead = some v := rfl
@[simp] theorem State.answer_tick (v : ReadValue) : (s.answer v).tick = s.tick := rfl

/-! ## State.hardReset -/

@[simp] theorem State.hardReset_caps : s.hardReset.caps = s.caps := rfl
@[simp] theorem State.hardReset_fsm : s.hardReset.fsm = .idle := rfl
@[simp] theorem State.hardReset_errCode : s.hardReset.errCode = 0 := rfl
@[simp] theorem State.hardReset_cmdResult : s.hardReset.cmdResult = .accepted := rfl
@[simp] theorem State.hardReset_busyWr : s.hardReset.busyWr = false := rfl
@[simp] theorem State.hardReset_convValid : s.hardReset.convValid = false := rfl
@[simp] theorem State.hardReset_convFmt : s.hardReset.convFmt = false := rfl
@[simp] theorem State.hardReset_cfg : s.hardReset.cfg = CfgRegs.zero := rfl
@[simp] theorem State.hardReset_run : s.hardReset.run = RunRegs.zero := rfl
@[simp] theorem State.hardReset_geo : s.hardReset.geo = GeoRegs.zero := rfl
@[simp] theorem State.hardReset_pos : s.hardReset.pos = Position.zero := rfl
@[simp] theorem State.hardReset_inMem : s.hardReset.inMem = [] := rfl
@[simp] theorem State.hardReset_plte : s.hardReset.plte = [] := rfl
@[simp] theorem State.hardReset_trns : s.hardReset.trns = [] := rfl
@[simp] theorem State.hardReset_cur : s.hardReset.cur = [] := rfl
@[simp] theorem State.hardReset_prior : s.hardReset.prior = [] := rfl
@[simp] theorem State.hardReset_out : s.hardReset.out = [] := rfl
@[simp] theorem State.hardReset_conv : s.hardReset.conv = [] := rfl
@[simp] theorem State.hardReset_samples : s.hardReset.samples = [] := rfl
@[simp] theorem State.hardReset_agenda : s.hardReset.agenda = s.agenda := rfl
@[simp] theorem State.hardReset_lastRead : s.hardReset.lastRead = s.lastRead := rfl
@[simp] theorem State.hardReset_tick : s.hardReset.tick = s.tick := rfl

/-! ## Updates that depend on FSM -/

@[simp] theorem State.finishByte_caps : s.finishByte.caps = s.caps := by unfold State.finishByte; split <;> rfl
@[simp] theorem State.finishByte_errCode : s.finishByte.errCode = s.errCode := by unfold State.finishByte; split <;> rfl
@[simp] theorem State.finishByte_cmdResult : s.finishByte.cmdResult = s.cmdResult := by unfold State.finishByte; split <;> rfl
@[simp] theorem State.finishByte_busyWr : s.finishByte.busyWr = s.busyWr := by unfold State.finishByte; split <;> rfl
@[simp] theorem State.finishByte_convValid : s.finishByte.convValid = s.convValid := by unfold State.finishByte; split <;> rfl
@[simp] theorem State.finishByte_convFmt : s.finishByte.convFmt = s.convFmt := by unfold State.finishByte; split <;> rfl
@[simp] theorem State.finishByte_cfg : s.finishByte.cfg = s.cfg := by unfold State.finishByte; split <;> rfl
@[simp] theorem State.finishByte_run : s.finishByte.run = s.run := by unfold State.finishByte; split <;> rfl
@[simp] theorem State.finishByte_geo : s.finishByte.geo = s.geo := by unfold State.finishByte; split <;> rfl
@[simp] theorem State.finishByte_inMem : s.finishByte.inMem = s.inMem := by unfold State.finishByte; split <;> rfl
@[simp] theorem State.finishByte_plte : s.finishByte.plte = s.plte := by unfold State.finishByte; split <;> rfl
@[simp] theorem State.finishByte_trns : s.finishByte.trns = s.trns := by unfold State.finishByte; split <;> rfl
@[simp] theorem State.finishByte_cur : s.finishByte.cur = s.cur := by unfold State.finishByte; split <;> rfl
@[simp] theorem State.finishByte_prior : s.finishByte.prior = s.prior := by unfold State.finishByte; split <;> rfl
@[simp] theorem State.finishByte_out : s.finishByte.out = s.out := by unfold State.finishByte; split <;> rfl
@[simp] theorem State.finishByte_conv : s.finishByte.conv = s.conv := by unfold State.finishByte; split <;> rfl
@[simp] theorem State.finishByte_samples : s.finishByte.samples = s.samples := by unfold State.finishByte; split <;> rfl
@[simp] theorem State.finishByte_agenda : s.finishByte.agenda = s.agenda := by unfold State.finishByte; split <;> rfl
@[simp] theorem State.finishByte_lastRead : s.finishByte.lastRead = s.lastRead := by unfold State.finishByte; split <;> rfl
@[simp] theorem State.finishByte_tick : s.finishByte.tick = s.tick := by unfold State.finishByte; split <;> rfl

@[simp] theorem State.completePass_caps : s.completePass.caps = s.caps := by
  unfold State.completePass; split <;> [rfl; split <;> rfl]
@[simp] theorem State.completePass_errCode : s.completePass.errCode = s.errCode := by
  unfold State.completePass; split <;> [rfl; split <;> rfl]
@[simp] theorem State.completePass_cmdResult : s.completePass.cmdResult = s.cmdResult := by
  unfold State.completePass; split <;> [rfl; split <;> rfl]
@[simp] theorem State.completePass_busyWr : s.completePass.busyWr = s.busyWr := by
  unfold State.completePass; split <;> [rfl; split <;> rfl]
@[simp] theorem State.completePass_convValid : s.completePass.convValid = s.convValid := by
  unfold State.completePass; split <;> [rfl; split <;> rfl]
@[simp] theorem State.completePass_convFmt : s.completePass.convFmt = s.convFmt := by
  unfold State.completePass; split <;> [rfl; split <;> rfl]
@[simp] theorem State.completePass_cfg : s.completePass.cfg = s.cfg := by
  unfold State.completePass; split <;> [rfl; split <;> rfl]
@[simp] theorem State.completePass_run : s.completePass.run = s.run := by
  unfold State.completePass; split <;> [rfl; split <;> rfl]
@[simp] theorem State.completePass_inMem : s.completePass.inMem = s.inMem := by
  unfold State.completePass; split <;> [rfl; split <;> rfl]
@[simp] theorem State.completePass_plte : s.completePass.plte = s.plte := by
  unfold State.completePass; split <;> [rfl; split <;> rfl]
@[simp] theorem State.completePass_trns : s.completePass.trns = s.trns := by
  unfold State.completePass; split <;> [rfl; split <;> rfl]
@[simp] theorem State.completePass_cur : s.completePass.cur = s.cur := by
  unfold State.completePass; split <;> [rfl; split <;> rfl]
@[simp] theorem State.completePass_prior : s.completePass.prior = s.prior := by
  unfold State.completePass; split <;> [rfl; split <;> rfl]
@[simp] theorem State.completePass_out : s.completePass.out = s.out := by
  unfold State.completePass; split <;> [rfl; split <;> rfl]
@[simp] theorem State.completePass_conv : s.completePass.conv = s.conv := by
  unfold State.completePass; split <;> [rfl; split <;> rfl]
@[simp] theorem State.completePass_samples : s.completePass.samples = s.samples := by
  unfold State.completePass; split <;> [rfl; split <;> rfl]
@[simp] theorem State.completePass_agenda : s.completePass.agenda = s.agenda := by
  unfold State.completePass; split <;> [rfl; split <;> rfl]
@[simp] theorem State.completePass_lastRead : s.completePass.lastRead = s.lastRead := by
  unfold State.completePass; split <;> [rfl; split <;> rfl]
@[simp] theorem State.completePass_tick : s.completePass.tick = s.tick := by
  unfold State.completePass; split <;> [rfl; split <;> rfl]

end Sys2Proof.Machine
end

