-- ==== Sys2Proof/Laws/Ops.lean ====
section
/-! SUPPORT. One lemma per shared operation: everything it can do when it answers a next state. -/

namespace Sys2Proof.Machine

/-! ## andThen, fetch -/

theorem andThen_eq_next {r : Result} {f : State → Result} {t : State} (h : andThen r f = .next t) :
    ∃ s, r = .next s ∧ f s = .next t := by
  cases r <;> simp_all [andThen]

@[simp] theorem andThen_next (s : State) (f : State → Result) : andThen (.next s) f = f s := rfl

theorem fetchByte_eq_some {s : State} {x : Byte} (h : s.fetchByte = some x) :
    s.pos.inPtr.toNat < s.caps.inBytes ∧ x = s.inByte s.pos.inPtr.toNat := by
  unfold State.fetchByte at h
  split at h <;> simp_all

theorem fetchByte_of_lt {s : State} (h : s.pos.inPtr.toNat < s.caps.inBytes) :
    s.fetchByte = some (s.inByte s.pos.inPtr.toNat) := by
  simp [State.fetchByte, h]

/-! ## Filters -/

theorem reconstructByte_of_lt {s : State} (reverse : Byte → Byte → Byte → Byte → Byte)
    (hi : s.pos.inPtr.toNat < s.caps.inBytes) (hr : s.pos.lbyte.toNat < s.caps.rowBytes) :
    reconstructByte reverse s =
      let i := s.pos.lbyte.toNat
      let y := reverse (s.inByte s.pos.inPtr.toNat) (s.leftRef i) (s.upRef i) (s.upLeftRef i)
      let s₁ := { s with cur := cellSet s.cur i y }
      .next { s₁ with samples := s₁.emitted i } := by
  simp [reconstructByte, fetchByte_of_lt hi, hr]

/-- A data byte that goes through changes CUR at LBYTE and hands samples on; nothing else. -/
theorem reconstructByte_eq_next {s t : State} {reverse : Byte → Byte → Byte → Byte → Byte}
    (h : reconstructByte reverse s = .next t) :
    s.pos.lbyte.toNat < s.caps.rowBytes ∧
    ∃ y, t = { s with cur := cellSet s.cur s.pos.lbyte.toNat y
                      samples := ({ s with cur := cellSet s.cur s.pos.lbyte.toNat y } : State).emitted s.pos.lbyte.toNat } := by
  unfold reconstructByte at h
  split at h
  · cases h
  · simp only at h
    split at h
    · exact ⟨‹_›, _, (Host.Outcome.next.inj h).symm⟩
    · cases h

/-- What a selector can do. -/
theorem runFilter_eq_next {s t : State} {ftype : BitVec 3} {reverse : Byte → Byte → Byte → Byte → Byte}
    (h : runFilter ftype reverse s = .next t) :
    (s.fsm = .awaitingRow ∧ t = s.takeSelector ftype) ∨
    (s.fsm = .unfilteringRow ∧ reconstructByte reverse s = .next t) ∨
    (s.fsm ≠ .awaitingRow ∧ s.fsm ≠ .unfilteringRow ∧ t = s) := by
  unfold runFilter at h
  split at h <;> simp_all

/-! ## Modes -/

theorem runMode_of_fit {s : State} (rule : PixelRule) (h : ∀ x ∈ s.samples, x.pix < s.caps.pixels) :
    runMode rule s =
      match assemble (rule s) s.samples s.out with
      | some out => .next { s with out := out, samples := [] }
      | none => .next (s.raise .paletteIndexError) := by
  have : (s.samples.all fun x => x.pix < s.caps.pixels) = true := by simpa using h
  cases ha : assemble (rule s) s.samples s.out <;> simp [runMode, this, ha]

/-- What a mode can do. -/
theorem runMode_eq_next {s t : State} {rule : PixelRule} (h : runMode rule s = .next t) :
    (∀ x ∈ s.samples, x.pix < s.caps.pixels) ∧
    ((∃ out, assemble (rule s) s.samples s.out = some out ∧ t = { s with out := out, samples := [] }) ∨
     (assemble (rule s) s.samples s.out = none ∧ t = s.raise .paletteIndexError)) := by
  unfold runMode at h
  split at h
  · rename_i hall
    refine ⟨by simpa using hall, ?_⟩
    split at h
    · exact .inl ⟨_, ‹_›, (Host.Outcome.next.inj h).symm⟩
    · exact .inr ⟨‹_›, (Host.Outcome.next.inj h).symm⟩
  · cases h

theorem assemble_wf {size : Nat} {rule : Sample → Option (List (Fin 4 × Half))} {xs : List Sample} {o o' : List (Nat × Half)}
    (h : assemble rule xs o = some o') (hp : ∀ x ∈ xs, x.pix < size) (hw : cellsWf (4 * size) o) : cellsWf (4 * size) o' := by
  induction xs generalizing o with
  | nil => cases h; exact hw
  | cons x xs ih =>
    unfold assemble at h
    split at h
    · exact ih h (fun y hy => hp y (by simp [hy])) (outWrites_wf _ (hp x (by simp)) hw)
    · cases h

/-- Only the elements of the samples change. -/
theorem cellGet_assemble_other {rule : Sample → Option (List (Fin 4 × Half))} {xs : List Sample} {o o' : List (Nat × Half)}
    (h : assemble rule xs o = some o') {a : Nat} (ha : ∀ x ∈ xs, a / 4 ≠ x.pix) : cellGet o' a = cellGet o a := by
  induction xs generalizing o with
  | nil => cases h; rfl
  | cons x xs ih =>
    unfold assemble at h
    split at h
    · rw [ih h (fun y hy => ha y (by simp [hy])), cellGet_outWrites_other _ _ _ (ha x (by simp))]
    · cases h

/-! ## Commands -/

/-- What START can do. -/
theorem execStart_eq_next {s t : State} (h : execStart s = .next t) :
    (s.busy = true ∧ t = s.withResult .refusedState) ∨
    (s.busy = false ∧ ∃ e, s.cfg.startError s.caps = some e ∧ t = ((s.withResult .accepted).dropPreviousResult).raise e) ∨
    (s.busy = false ∧ s.cfg.startError s.caps = none ∧
      t = ((s.withResult .accepted).dropPreviousResult).latchRun.beginWalk) := by
  unfold execStart at h
  split at h
  · exact .inl ⟨‹_›, (Host.Outcome.next.inj h).symm⟩
  · simp only at h
    have hb : s.busy = false := by simpa using ‹¬ s.busy = true›
    split at h
    · exact .inr (.inl ⟨hb, _, ‹_›, (Host.Outcome.next.inj h).symm⟩)
    · exact .inr (.inr ⟨hb, ‹_›, (Host.Outcome.next.inj h).symm⟩)

/-- What RELEASE can do. -/
theorem execRelease_eq_next {s t : State} (h : execRelease s = .next t) :
    (s.busy = true ∧ t = s.withResult .refusedState) ∨
    (s.busy = false ∧ t = { s.dropPreviousResult with fsm := .idle, cmdResult := .accepted }) := by
  unfold execRelease at h
  split at h
  · exact .inl ⟨‹_›, (Host.Outcome.next.inj h).symm⟩
  · exact .inr ⟨by simpa using ‹¬ s.busy = true›, (Host.Outcome.next.inj h).symm⟩

/-- What a conversion proper can do. -/
theorem convertRaster_eq_next {s t : State} {adapter : Option ((Fin 4 → Half) → Rgba)} {format : Bool}
    (h : convertRaster adapter format s = .next t) :
    s.pixelCount ≤ s.caps.pixels ∧ ∃ adapt, adapter = some adapt ∧
      t = { s with conv := s.convertedRaster adapt, convFmt := format, convValid := true, cmdResult := .accepted } := by
  unfold convertRaster at h
  split at h
  · split at h
    · exact ⟨‹_›, _, rfl, (Host.Outcome.next.inj h).symm⟩
    · cases h
  · cases h

theorem convertedRaster_wf {s : State} (adapt : (Fin 4 → Half) → Rgba) (h : s.pixelCount ≤ s.caps.pixels) :
    cellsWf s.caps.pixels (s.convertedRaster adapt) := by
  refine ⟨?_, fun c hc => ?_⟩
  · simp only [State.convertedRaster, List.pairwise_map]
    exact List.pairwise_lt_range
  · simp only [State.convertedRaster, List.mem_map, List.mem_range] at hc
    obtain ⟨p, hp, rfl⟩ := hc
    exact Nat.lt_of_lt_of_le hp h

theorem cellGet_convertedRaster (s : State) (adapt : (Fin 4 → Half) → Rgba) (pix : Nat) :
    cellGet (s.convertedRaster adapt) pix = if pix < s.pixelCount then some (adapt (s.outChannel pix)) else none := by
  split
  · rename_i h
    rcases hc : cellGet (s.convertedRaster adapt) pix with _ | v
    · exact absurd rfl (cellGet_eq_none.1 hc (pix, adapt (s.outChannel pix))
        (List.mem_map.2 ⟨pix, List.mem_range.2 h, rfl⟩))
    · have : ∀ l : List Nat, cellGet (l.map fun p => (p, adapt (s.outChannel p))) pix = some v →
          v = adapt (s.outChannel pix) := by
        intro l
        induction l with
        | nil => simp [cellGet]
        | cons a l ih =>
          simp only [List.map_cons, cellGet]
          split
          · subst_vars; intro e; exact (Option.some.inj e).symm
          · exact ih
      rw [this _ hc]
  · rename_i h
    refine cellGet_eq_none.2 fun c hc => ?_
    simp only [State.convertedRaster, List.mem_map, List.mem_range] at hc
    obtain ⟨p, hp, rfl⟩ := hc
    simp only
    omega

/-- What a CONVERT command can do: refused in the state, refused by its adapter, or the conversion proper. -/
theorem execConvertRgba8_eq_next {s t : State} (h : execConvertRgba8 s = .next t) :
    (s.fsm ≠ .done ∧ t = s.withResult .refusedState) ∨
    (s.fsm = .done ∧ 8 < s.run.bd.toNat ∧ t = s.refuseAdapter) ∨
    (s.fsm = .done ∧ s.run.bd.toNat ≤ 8 ∧ convertRaster (adapter8 s.run.kind) false s = .next t) := by
  unfold execConvertRgba8 at h
  split at h
  · split at h
    · exact .inr (.inl ⟨‹_›, ‹_›, (Host.Outcome.next.inj h).symm⟩)
    · exact .inr (.inr ⟨‹_›, by omega, h⟩)
  · exact .inl ⟨‹_›, (Host.Outcome.next.inj h).symm⟩

theorem execConvertRgba16_eq_next {s t : State} (h : execConvertRgba16 s = .next t) :
    (s.fsm ≠ .done ∧ t = s.withResult .refusedState) ∨
    (s.fsm = .done ∧ s.run.bd.toNat ≤ 8 ∧ t = s.refuseAdapter) ∨
    (s.fsm = .done ∧ 8 < s.run.bd.toNat ∧ convertRaster (adapter16 s.run.kind) true s = .next t) := by
  unfold execConvertRgba16 at h
  split at h
  · split at h
    · exact .inr (.inl ⟨‹_›, ‹_›, (Host.Outcome.next.inj h).symm⟩)
    · exact .inr (.inr ⟨‹_›, by omega, h⟩)
  · exact .inl ⟨‹_›, (Host.Outcome.next.inj h).symm⟩

/-! ## The walk -/

/-- What PassComplete can do (`41_adam7.md` R165). -/
theorem completePass_cases (s : State) :
    (s.run.il = 0 ∧ s.completePass = s.enterDone) ∨
    (s.run.il ≠ 0 ∧ nextPass s.pos.pass.toNat s.run.w.toNat s.run.h.toNat = none ∧ s.completePass = s.enterDone) ∨
    (s.run.il ≠ 0 ∧ ∃ q, nextPass s.pos.pass.toNat s.run.w.toNat s.run.h.toNat = some q ∧
      s.completePass = { s.enterPass q with fsm := .awaitingRow }) := by
  by_cases h : s.run.il = 0
  · exact .inl ⟨h, by simp [State.completePass, h]⟩
  · cases hq : nextPass s.pos.pass.toNat s.run.w.toNat s.run.h.toNat with
    | none => exact .inr (.inl ⟨h, rfl, by unfold State.completePass; rw [if_neg h, hq]⟩)
    | some q => exact .inr (.inr ⟨h, q, rfl, by unfold State.completePass; rw [if_neg h, hq]⟩)

/-- After an error the advance does nothing. -/
theorem finishByte_of_error {s : State} (h : s.fsm = .error) : s.finishByte = s := by
  simp [State.finishByte, h]

/-- The advance of a byte whose samples raised nothing. -/
theorem finishByte_of_unfiltering {s : State} (h : s.fsm = .unfilteringRow) :
    s.finishByte =
      { s with
        fsm := if s.pos.lbyte.toNat + 1 = s.geo.rb then .rowComplete else .unfilteringRow
        pos := { s.pos with inPtr := s.pos.inPtr + 1, lbyte := s.pos.lbyte + 1 } } := by
  simp [State.finishByte, h]

/-! ## Instructions by family -/

/-- Every filter instruction is a selector at work, with its type and its reversal. -/
theorem exec_filter {i : Instr} (h : i.format = .filter) :
    ∃ (ftype : BitVec 3) (reverse : Byte → Byte → Byte → Byte → Byte),
      ftype.toNat ≤ 4 ∧ ∀ s, exec i s = runFilter ftype reverse s := by
  cases i
  case filtNone => exact ⟨0, reconNone, by decide, fun _ => rfl⟩
  case filtSub => exact ⟨1, reconSub, by decide, fun _ => rfl⟩
  case filtUp => exact ⟨2, reconUp, by decide, fun _ => rfl⟩
  case filtAvg => exact ⟨3, reconAvg, by decide, fun _ => rfl⟩
  case filtPaeth => exact ⟨4, reconPaeth, by decide, fun _ => rfl⟩
  all_goals cases h

/-- Every mode instruction is a mode at work, with its pixel rule. -/
theorem exec_mode {i : Instr} (h : i.format = .mode) :
    ∃ rule : PixelRule, (rule = scaledGrey 1 ∨ rule = scaledGrey 2 ∨ rule = scaledGrey 4 ∨ rule = wholeGrey ∨
      rule = wholeChannel ∨ rule = indexedPixel) ∧ ∀ s, exec i s = runMode rule s := by
  cases i
  case modeGray1 => exact ⟨scaledGrey 1, by simp, fun _ => rfl⟩
  case modeGray2 => exact ⟨scaledGrey 2, by simp, fun _ => rfl⟩
  case modeGray4 => exact ⟨scaledGrey 4, by simp, fun _ => rfl⟩
  case modeGray8 => exact ⟨wholeGrey, by simp, fun _ => rfl⟩
  case modeGray16 => exact ⟨wholeGrey, by simp, fun _ => rfl⟩
  case modeRgb8 => exact ⟨wholeChannel, by simp, fun _ => rfl⟩
  case modeRgb16 => exact ⟨wholeChannel, by simp, fun _ => rfl⟩
  case modeIdx1 => exact ⟨indexedPixel, by simp, fun _ => rfl⟩
  case modeIdx2 => exact ⟨indexedPixel, by simp, fun _ => rfl⟩
  case modeIdx4 => exact ⟨indexedPixel, by simp, fun _ => rfl⟩
  case modeIdx8 => exact ⟨indexedPixel, by simp, fun _ => rfl⟩
  case modeGa8 => exact ⟨wholeChannel, by simp, fun _ => rfl⟩
  case modeGa16 => exact ⟨wholeChannel, by simp, fun _ => rfl⟩
  case modeRgba8 => exact ⟨wholeChannel, by simp, fun _ => rfl⟩
  case modeRgba16 => exact ⟨wholeChannel, by simp, fun _ => rfl⟩
  all_goals cases h

/-- Every command instruction by name. -/
theorem exec_command {i : Instr} (h : i.format = .command) (s : State) :
    (i = .nop ∧ exec i s = .next (s.withResult .accepted)) ∨ (i = .start ∧ exec i s = execStart s) ∨
    (i = .convertRgba8 ∧ exec i s = execConvertRgba8 s) ∨ (i = .convertRgba16 ∧ exec i s = execConvertRgba16 s) ∨
    (i = .release ∧ exec i s = execRelease s) := by
  cases i
  case nop => exact .inl ⟨rfl, rfl⟩
  case start => exact .inr (.inl ⟨rfl, rfl⟩)
  case convertRgba8 => exact .inr (.inr (.inl ⟨rfl, rfl⟩))
  case convertRgba16 => exact .inr (.inr (.inr (.inl ⟨rfl, rfl⟩)))
  case release => exact .inr (.inr (.inr (.inr ⟨rfl, rfl⟩)))
  all_goals cases h

end Sys2Proof.Machine
end

