-- ==== Sys2Proof/Laws/PerInstr.lean ====
section
/-! SUPPORT. What is true of every instruction as syntax, one lemma per constructor. -/

namespace Sys2Proof.Laws.TableRow

/-- The instruction is well formed, and its code word fits its format and names it in the opcode table, through one row. -/
def Statement (i : Instr) : Prop :=
  i.wellFormed = true ∧ (encode i).wellFormed = true ∧ ((opcodeRows i.format).filter (·.instr = i)).length = 1 ∧
    decode (encode i) = .ok i

theorem filtNone : Statement .filtNone := ⟨rfl, rfl, rfl, rfl⟩

theorem filtSub : Statement .filtSub := ⟨rfl, rfl, rfl, rfl⟩

theorem filtUp : Statement .filtUp := ⟨rfl, rfl, rfl, rfl⟩

theorem filtAvg : Statement .filtAvg := ⟨rfl, rfl, rfl, rfl⟩

theorem filtPaeth : Statement .filtPaeth := ⟨rfl, rfl, rfl, rfl⟩

theorem nop : Statement .nop := ⟨rfl, rfl, rfl, rfl⟩

theorem start : Statement .start := ⟨rfl, rfl, rfl, rfl⟩

theorem convertRgba8 : Statement .convertRgba8 := ⟨rfl, rfl, rfl, rfl⟩

theorem convertRgba16 : Statement .convertRgba16 := ⟨rfl, rfl, rfl, rfl⟩

theorem release : Statement .release := ⟨rfl, rfl, rfl, rfl⟩

theorem modeGray1 : Statement .modeGray1 := ⟨rfl, rfl, rfl, rfl⟩

theorem modeGray2 : Statement .modeGray2 := ⟨rfl, rfl, rfl, rfl⟩

theorem modeGray4 : Statement .modeGray4 := ⟨rfl, rfl, rfl, rfl⟩

theorem modeGray8 : Statement .modeGray8 := ⟨rfl, rfl, rfl, rfl⟩

theorem modeGray16 : Statement .modeGray16 := ⟨rfl, rfl, rfl, rfl⟩

theorem modeRgb8 : Statement .modeRgb8 := ⟨rfl, rfl, rfl, rfl⟩

theorem modeRgb16 : Statement .modeRgb16 := ⟨rfl, rfl, rfl, rfl⟩

theorem modeIdx1 : Statement .modeIdx1 := ⟨rfl, rfl, rfl, rfl⟩

theorem modeIdx2 : Statement .modeIdx2 := ⟨rfl, rfl, rfl, rfl⟩

theorem modeIdx4 : Statement .modeIdx4 := ⟨rfl, rfl, rfl, rfl⟩

theorem modeIdx8 : Statement .modeIdx8 := ⟨rfl, rfl, rfl, rfl⟩

theorem modeGa8 : Statement .modeGa8 := ⟨rfl, rfl, rfl, rfl⟩

theorem modeGa16 : Statement .modeGa16 := ⟨rfl, rfl, rfl, rfl⟩

theorem modeRgba8 : Statement .modeRgba8 := ⟨rfl, rfl, rfl, rfl⟩

theorem modeRgba16 : Statement .modeRgba16 := ⟨rfl, rfl, rfl, rfl⟩

end Sys2Proof.Laws.TableRow
end

