-- ==== Sys2Proof/Laws/Sound.lean ====
section
/-! SUPPORT. What a sound state and a decode in progress satisfy, and that a legal code word decodes. -/

namespace Sys2Proof.Machine

/-! ## A decode in progress -/

theorem State.Decoding.legal {s : State} (hd : s.Decoding) : legalFormat s.run.ct s.run.bd = true := by
  rw [hd.latched]
  exact (CfgRegs.accepted_of hd.accepted).format

theorem State.Decoding.rb_pos {s : State} (hd : s.Decoding) : 0 < s.geo.rb := by
  rw [hd.geometry]
  refine rowBytes_pos ?_ hd.nonEmpty
  rw [hd.latched]
  exact pixelBits_pos (CfgRegs.accepted_of hd.accepted).format

theorem State.Decoding.rb_le {s : State} (hd : s.Decoding) : s.geo.rb ≤ s.caps.rowBytes := by
  have hr := List.all_eq_true.1 (CfgRegs.accepted_of hd.accepted).rows
  have him := hd.inImage
  have hne := hd.nonEmpty
  rw [hd.geometry]
  rw [hd.latched] at him hne ⊢
  have := hr _ him
  simp only [CfgRegs.latched] at hne this ⊢
  simpa [hne, GeoRegs.ofPass] using this

theorem State.Decoding.pixelCount_le {s : State} (hd : s.Decoding) : s.pixelCount ≤ s.caps.pixels := by
  rw [State.pixelCount, hd.latched]
  exact (CfgRegs.accepted_of hd.accepted).pixels

theorem State.Decoding.inPtr_lt {s : State} (hd : s.Decoding) (hx : s.exhausted = false) :
    s.pos.inPtr.toNat < s.caps.inBytes := by
  have ha := CfgRegs.accepted_of hd.accepted
  have hl := ha.input
  have hi := ha.sizeIn
  simp only [State.exhausted, decide_eq_false_iff_not] at hx
  omega

/-! ## A sound state -/

/-- Taking the next event keeps soundness. -/
theorem State.Sound.beginStep {s : State} (h : s.Sound) : s.beginStep.Sound := by
  obtain ⟨h1, h2, h3, h4, h5, h6, h7, h8, hc, h9, h10, h11⟩ := h
  refine ⟨h1, h2, h3, h4, h5, h6, h7, h8, hc, fun hi => ?_, fun hb => ?_, h11⟩
  · have := h9 hi
    unfold State.beginStep
    generalize s = s' at *
    rw [← this]
    rfl
  · obtain ⟨a, b, c, d, e, f, g, i⟩ := h10 hb
    exact ⟨a, b, c, d, e, f, g, i⟩

/-- A sound decode never meets the exhaustion exit of `41_adam7.md` R167. -/
theorem State.Sound.not_exhausted {s : State} (h : s.Sound) (hf : s.fsm = .awaitingRow ∨ s.fsm = .unfilteringRow) :
    s.exhausted = false := by
  have hd := h.decoding (by rcases hf with hf | hf <;> simp [State.busy, hf])
  have hi := hd.input
  unfold State.exhausted
  rcases hf with hf | hf
  · simp only [State.bytesLeft, hf] at hi
    have : 1 ≤ (s.rowsToCome + 1) * (1 + s.geo.rb) := Nat.mul_pos (by omega) (by omega)
    simp only [decide_eq_false_iff_not]
    omega
  · have := hd.byte hf
    simp only [State.bytesLeft, hf] at hi
    simp only [decide_eq_false_iff_not]
    omega

/-! ## Legal code words decode -/

theorem decodeSelector_ok {ft : Byte} (h : ft.toNat ≤ 4) : ∃ i, decodeSelector ft = .ok i := by
  have hc : ft = 0 ∨ ft = 1 ∨ ft = 2 ∨ ft = 3 ∨ ft = 4 := by
    simp only [← BitVec.toNat_inj, show BitVec.toNat (0 : Byte) = 0 from rfl, show BitVec.toNat (1 : Byte) = 1 from rfl,
      show BitVec.toNat (2 : Byte) = 2 from rfl, show BitVec.toNat (3 : Byte) = 3 from rfl,
      show BitVec.toNat (4 : Byte) = 4 from rfl]
    omega
  rcases hc with rfl | rfl | rfl | rfl | rfl <;> exact ⟨_, rfl⟩

theorem decodeMode_ok {ct bd : Byte} (h : legalFormat ct bd = true) : ∃ i, decodeMode ct bd = .ok i := by
  have hok : (decodeMode ct bd).isOk = true :=
    forall_legalFormat (test := fun ct bd => (decodeMode ct bd).isOk) (by decide) h
  cases hd : decodeMode ct bd with
  | ok i => exact ⟨i, rfl⟩
  | error e => rw [hd] at hok; cases hok

/-! ## Samples -/

theorem pixelIndex_lt {w h fx fy : Nat} (hx : fx < w) (hy : fy < h) : pixelIndex w fx fy < w * h := by
  have h1 : (fy + 1) * w ≤ h * w := Nat.mul_le_mul_right _ hy
  rw [Nat.succ_mul, Nat.mul_comm h w] at h1
  unfold pixelIndex
  omega

/-- A sample handed on names an element of the raster. -/
theorem emitted_pix_lt {s : State} {i : Nat} {x : Sample} (h : x ∈ s.emitted i) : x.pix < s.pixelCount := by
  obtain ⟨c, -, hc⟩ := List.mem_filterMap.1 h
  unfold State.placeSample at hc
  simp only at hc
  split at hc
  · cases hc
    exact pixelIndex_lt ‹_ ∧ _›.1 ‹_ ∧ _›.2
  · cases hc

end Sys2Proof.Machine
end

