-- ==== Sys2Proof/Laws/Step.lean ====
section
/-! SUPPORT. Everything one step can do, said once: EngineMove for the engine, HostMove for the host, and the inversion lemmas
that later proofs cite instead of unfolding step. -/

namespace Sys2Proof.Machine

/-- What an engine step that answers a next state can be. -/
inductive EngineMove (s : State) : State → Prop where
  /-- Idle, Done or Error: nothing. -/
  | rest (h : s.busy = false) : EngineMove s s
  /-- The exhaustion exit (`41_adam7.md` R167). -/
  | exhausted (h : s.fsm = .awaitingRow ∨ s.fsm = .unfilteringRow) (hx : s.exhausted = true) : EngineMove s s.enterDone
  /-- A legal selector (R162). -/
  | selector (h : s.fsm = .awaitingRow) (hx : s.exhausted = false) (hi : s.pos.inPtr.toNat < s.caps.inBytes)
      (ftype : BitVec 3) (hf : ftype.toNat ≤ 4) : EngineMove s (s.takeSelector ftype)
  /-- An illegal selector (R162). -/
  | badSelector (h : s.fsm = .awaitingRow) (hx : s.exhausted = false) (hi : s.pos.inPtr.toNat < s.caps.inBytes) :
      EngineMove s s.rejectSelector
  /-- A data byte (R163): the filter, the mode, the advance. -/
  | dataByte (h : s.fsm = .unfilteringRow) (hx : s.exhausted = false) (i : Instr) (hi : s.currentMode = .ok i)
      (reverse : Byte → Byte → Byte → Byte → Byte) (rule : PixelRule) (hr : ∀ t, exec i t = runMode rule t) (s₁ s₂ : State)
      (h₁ : reconstructByte reverse s = .next s₁) (h₂ : runMode rule s₁ = .next s₂) : EngineMove s s₂.finishByte
  /-- RowComplete (R164). -/
  | row (h : s.fsm = .rowComplete) : EngineMove s s.completeRow
  /-- PassComplete (R165). -/
  | pass (h : s.fsm = .passComplete) : EngineMove s s.completePass

theorem engineStep_eq_next {s t : State} (h : engineStep s = .next t) : EngineMove s t := by
  unfold engineStep at h
  split at h
  · cases h; exact .rest (by simp [State.busy, *])
  · cases h; exact .rest (by simp [State.busy, *])
  · cases h; exact .rest (by simp [State.busy, *])
  · rename_i hf
    unfold awaitingRowStep at h
    split at h
    · cases h; exact .exhausted (.inl hf) ‹_›
    · rename_i hx
      have hx : s.exhausted = false := by simpa using hx
      split at h
      · cases h
      · rename_i ft hft
        have hi := (fetchByte_eq_some hft).1
        split at h
        · rename_i i hd
          obtain ⟨ftype, reverse, hle, he⟩ := exec_filter (decode_format hd)
          rw [he] at h
          rcases runFilter_eq_next h with ⟨-, rfl⟩ | ⟨h', -⟩ | ⟨h', -⟩
          · exact .selector hf hx hi ftype hle
          · simp [hf] at h'
          · exact absurd hf h'
        · cases h; exact .badSelector hf hx hi
  · rename_i hf
    unfold unfilteringRowStep at h
    split at h
    · cases h; exact .exhausted (.inr hf) ‹_›
    · rename_i hx
      have hx : s.exhausted = false := by simpa using hx
      split at h
      · rename_i f m hdf hdm
        obtain ⟨ftype, reverse, hle, he⟩ := exec_filter (decode_format hdf)
        obtain ⟨rule, -, hr⟩ := exec_mode (decode_format hdm)
        obtain ⟨s₂, h₂, ht⟩ := andThen_eq_next h
        obtain ⟨s₁, h₁, h₂⟩ := andThen_eq_next h₂
        rw [he] at h₁
        rw [hr] at h₂
        cases ht
        rcases runFilter_eq_next h₁ with ⟨h', -⟩ | ⟨-, h₁⟩ | ⟨-, h', -⟩
        · simp [hf] at h'
        · exact .dataByte hf hx m hdm reverse rule hr s₁ s₂ h₁ h₂
        · exact absurd hf h'
      · cases h
      · cases h
  · cases h; exact .row ‹_›
  · cases h; exact .pass ‹_›

/-- What a host action that answers a next state can be. -/
inductive HostMove (a : HostAction) (s : State) : State → Prop where
  /-- A command. -/
  | command (i : Instr) (value : Word) (ha : a.command? = some value) (hd : decodeCommand value = .ok i)
      (hf : i.format = .command) (t : State) (h : exec i s = .next t) : HostMove a s t
  /-- An undefined opcode. -/
  | undefined (value : Word) (ha : a.command? = some value) : HostMove a s s.undefinedCommand
  /-- Any other access. -/
  | access (ha : a.command? = none) : HostMove a s (s.hostAccess a)

theorem hostStep_eq_next {a : HostAction} {s t : State} (h : hostStep a s = .next t) : HostMove a s t := by
  unfold hostStep at h
  split at h
  · split at h
    · rename_i v hv _ i hd
      exact .command i v hv hd (decode_format hd) t h
    · cases h; exact .undefined _ ‹_›
  · cases h; exact .access ‹_›

/-- What a step that answers a next state can be. -/
theorem step_eq_next {s t : State} (h : step s = .next t) :
    ((s.agenda.head? = none ∨ s.agenda.head? = some .engine) ∧ EngineMove s.beginStep t) ∨
    (∃ a, s.agenda.head? = some (.host a) ∧ HostMove a s.beginStep t) ∨
    (s.agenda.head? = some .reset ∧ t = s.beginStep.hardReset) := by
  unfold step at h
  split at h
  · exact .inl ⟨.inl ‹_›, engineStep_eq_next h⟩
  · exact .inl ⟨.inr ‹_›, engineStep_eq_next h⟩
  · exact .inr (.inl ⟨_, ‹_›, hostStep_eq_next h⟩)
  · cases h; exact .inr (.inr ⟨‹_›, rfl⟩)

/-- A run begins with its first step. -/
theorem run_succ {s t : core.State} (h : core.step s = .next t) (k : Nat) : core.run (k + 1) s = core.run k t := by
  simp only [Host.Core.run, h]

end Sys2Proof.Machine
end

