-- ==== Sys2Proof/Tests/Slice0.lean ====
section
/-! SUPPORT. Tests, their expected results from `95_test_vectors.md` (the id in each docstring) or computed by hand from the rule
named, and after them the witnesses of the statements. -/

namespace Sys2Proof.Tests

open Sys2Proof.Machine

/-! ## Helpers -/

/-- A small implementation after reset. -/
def machine : State :=
  State.resetWith ⟨64, 64, 64⟩

/-- What a next state holds. -/
def holds {α : Type} (r : Result) (f : State → α) : Option α :=
  match r with
  | .next t => some (f t)
  | .fault _ => none
  | .refused _ => none

/-- A configured machine: size, format, interlacing, and the bytes of IN. -/
def configured (w h : Word) (ct bd il : Byte) (input : List Byte) : State :=
  { machine with
    cfg := { CfgRegs.zero with
      width := w, height := h, bitDepth := bd, colorType := ct, interlace := il, inLen := BitVec.ofNat 32 input.length }
    inMem := input.mapIdx fun k b => (k, b) }

/-- The machine with an accepted configuration latched, in a state of the walk at a place of pass `q`. -/
def walking (s : State) (fsm : Fsm) (q : Nat) (lrow lbyte inPtr : Word) (ftype : BitVec 3) (hasPrior : Bool) : State :=
  { s with
    run := s.cfg.latched
    geo := GeoRegs.ofPass q s.cfg.width.toNat s.cfg.height.toNat (pixelBits s.cfg.colorType s.cfg.bitDepth)
    fsm := fsm
    pos := ⟨BitVec.ofNat 3 q, lrow, lbyte, inPtr, ftype, hasPrior⟩ }

/-- One row of `w` columns in a format, the bytes before the last reconstructed, the last one next, with filter `ftype`. -/
def beforeByte (w : Word) (ct bd : Byte) (ftype : BitVec 3) (bytes : List Byte) (x : Byte) : State :=
  let s := configured w 1 ct bd 0 (0 :: (bytes ++ [x]))
  let n := bytes.length
  { walking s .unfilteringRow 0 0 (BitVec.ofNat 32 n) (BitVec.ofNat 32 (n + 1)) ftype false with
    cur := bytes.mapIdx fun k b => (k, b) }

/-- The machine with a palette and a transparency table. -/
def withPalette (s : State) (entries : List Rgb) (alphas : List Byte) : State :=
  { s with
    cfg := { s.cfg with
      plteCount := BitVec.ofNat 9 entries.length, plteValid := true
      trnsCount := BitVec.ofNat 9 alphas.length, trnsValid := !alphas.isEmpty }
    run := { s.run with kind := if s.run.ct = 3 ∧ alphas ≠ [] then .rgba8 else s.run.kind }
    plte := entries.mapIdx fun k e => (k, e)
    trns := alphas.mapIdx fun k a => (k, a) }

/-- The host writes CMD next. -/
def commanded (s : State) (value : Word) : State :=
  { s with agenda := [.host (.writeReg 0 value)] }

/-- A finished decode with the given OUT. -/
def finished (w h : Word) (ct bd : Byte) (out : List (Nat × Half)) : State :=
  { walking (configured w h ct bd 0 []) .done 0 h 0 0 0 true with out := out }

/-! ## Well-formedness and decoding -/

/-- A selector has 8 bits. -/
theorem test_wide_selector_refused : (CodeWord.mk .filter 0x100).wellFormed = false ∧
    decode ⟨.filter, 0x100⟩ = .error .tooWide := by decide

/-- A mode key has 16 bits. -/
theorem test_wide_mode_refused : (CodeWord.mk .mode 0x10000).wellFormed = false ∧
    decode ⟨.mode, 0x10001⟩ = .error .tooWide := by decide

/-- R91, each selector bit by bit. -/
theorem test_decode_selectors :
    decodeSelector 0b00000000 = .ok .filtNone ∧ decodeSelector 0b00000001 = .ok .filtSub ∧
    decodeSelector 0b00000010 = .ok .filtUp ∧ decodeSelector 0b00000011 = .ok .filtAvg ∧
    decodeSelector 0b00000100 = .ok .filtPaeth := by decide

/-- R92, the boundaries and a neighbour of every bit. -/
theorem test_decode_illegal_selectors :
    [(0x05 : Byte), 0x06, 0x07, 0x08, 0x10, 0x20, 0x40, 0x80, 0x84, 0xFF].all
      (fun b => decodeSelector b = .error .illegalSelector) = true := by decide

/-- R98, each command, and bits [31:8] ignored (K-11). -/
theorem test_decode_commands :
    decodeCommand 0b00000000000000000000000000000000 = .ok .nop ∧
    decodeCommand 0b00000000000000000000000000000001 = .ok .start ∧
    decodeCommand 0b00000000000000000000000000000010 = .ok .convertRgba8 ∧
    decodeCommand 0b00000000000000000000000000000011 = .ok .convertRgba16 ∧
    decodeCommand 0b00000000000000000000000000000100 = .ok .release ∧
    decodeCommand 0x00000101 = .ok .start ∧ decodeCommand 0x80000004 = .ok .release ∧
    decodeCommand 0xFF = .error .undefinedOpcode ∧ decodeCommand 0x105 = .error .undefinedOpcode := by decide

/-- R102, the grey and truecolour keys. -/
theorem test_decode_grey_and_colour :
    decodeMode 0b00000000 0b00000001 = .ok .modeGray1 ∧ decodeMode 0b00000000 0b00000010 = .ok .modeGray2 ∧
    decodeMode 0b00000000 0b00000100 = .ok .modeGray4 ∧ decodeMode 0b00000000 0b00001000 = .ok .modeGray8 ∧
    decodeMode 0b00000000 0b00010000 = .ok .modeGray16 ∧
    decodeMode 0b00000010 0b00001000 = .ok .modeRgb8 ∧ decodeMode 0b00000010 0b00010000 = .ok .modeRgb16 := by decide

/-- R102, the indexed keys and those with alpha. -/
theorem test_decode_indexed_and_alpha :
    decodeMode 0b00000011 0b00000001 = .ok .modeIdx1 ∧ decodeMode 0b00000011 0b00000010 = .ok .modeIdx2 ∧
    decodeMode 0b00000011 0b00000100 = .ok .modeIdx4 ∧ decodeMode 0b00000011 0b00001000 = .ok .modeIdx8 ∧
    decodeMode 0b00000100 0b00001000 = .ok .modeGa8 ∧ decodeMode 0b00000100 0b00010000 = .ok .modeGa16 ∧
    decodeMode 0b00000110 0b00001000 = .ok .modeRgba8 ∧ decodeMode 0b00000110 0b00010000 = .ok .modeRgba16 := by decide

/-- R94, pairs outside the table (X-4 to X-8). -/
theorem test_decode_illegal_modes :
    ([(1, 8), (0, 3), (3, 16), (2, 4), (0, 0), (5, 8), (6, 4), (4, 1)] : List (Byte × Byte)).all
      (fun p => decodeMode p.1 p.2 = .error .illegalModeKey) = true := by decide

/-- The table's rows by width: SUB (8), MODE_RGB16 (16), START as a whole register (32). -/
theorem test_decodeTableWord :
    decodeTableWord 8 1 = some .filtSub ∧ decodeTableWord 16 0x0210 = some .modeRgb16 ∧
    decodeTableWord 32 1 = some .start ∧ decodeTableWord 8 5 = none := by decide

/-! ## Filters -/

/-- F2. -/
theorem test_none : reconNone 0xFF 0x12 0x34 0x56 = 0xFF := by decide

/-- F3 to F5. -/
theorem test_sub : reconSub 0x05 0x10 0 0 = 0x15 ∧ reconSub 0xF0 0x20 0 0 = 0x10 ∧ reconSub 0xFF 0x01 0 0 = 0 := by decide

/-- RW-1: byte 3 of an RGB8 row adds byte 0. -/
theorem test_sub_reaches_back_bpp :
    holds (step (beforeByte 2 2 8 1 [0x10, 0x20, 0x30] 0x01)) (cellGet ·.cur 3) = some (some 0x11) := by decide

/-- F7, F8. -/
theorem test_up : reconUp 0x01 0 0x10 0 = 0x11 ∧ reconUp 0xFF 0 0x02 0 = 0x01 := by decide

/-- P6: row 1 of a 3 × 2 GRAY1 image, UP over A1 with its padding bits. -/
theorem test_up_keeps_padding :
    let s := { walking (configured 3 2 0 1 0 [0x00, 0xA1, 0x02, 0x1F]) .unfilteringRow 0 1 0 3 2 true with prior := [(0, 0xA1)] }
    holds (step s) (fun t => (t.cur, t.out)) = some ([(0, 0xC0)], [(12, 255), (16, 255), (20, 0)]) := by decide

/-- F10 to F14. -/
theorem test_avg :
    reconAvg 0xDA 0 0x6C 0 = 0x10 ∧ reconAvg 0x01 0xFF 0xFF 0 = 0 ∧ reconAvg 0 1 0 0 = 0 ∧ reconAvg 0 0xFF 1 0 = 0x80 ∧
    reconAvg 0x80 0xFF 0xFE 0 = 0x7E := by decide

/-- P-1 to P-16, but for those that swap no reference. -/
theorem test_paeth_predictor :
    paeth 10 20 0 = 20 ∧ paeth 255 0 255 = 0 ∧ paeth 0 255 255 = 0 ∧ paeth 100 50 75 = 75 ∧ paeth 0 0 5 = 0 ∧
    paeth 1 2 3 = 1 ∧ paeth 200 100 150 = 150 ∧ paeth 255 255 0 = 255 ∧ paeth 128 128 255 = 128 ∧ paeth 7 3 5 = 5 := by
  decide

/-- RW-3: byte 1 of the second row, whose left reference is the reconstructed byte. -/
theorem test_paeth_row :
    let s := { walking (configured 2 2 0 8 0 [0, 0x10, 0x20, 4, 0x05, 0x07]) .unfilteringRow 0 1 1 5 4 true with
      cur := [(0, 0x15), (1, 0x20)], prior := [(0, 0x10), (1, 0x20)] }
    holds (step s) (fun t => (t.cur, t.fsm, t.pos.inPtr)) = some ([(0, 0x15), (1, 0x27)], .rowComplete, 6) := by decide

/-! ## Geometry -/

/-- The table of L2.2 for 11 × 9: (columns, rows) of passes 1 to 7. -/
theorem test_adam7_counts :
    ([1, 2, 3, 4, 5, 6, 7].map fun q => (passCols q 11, passRows q 9)) =
      [(2, 2), (1, 2), (3, 1), (3, 3), (6, 2), (5, 5), (11, 4)] := by decide

/-- L2.2: the final position of the last pixel of each pass of 11 × 9. -/
theorem test_adam7_positions :
    ([(1, 1, 1), (2, 0, 1), (3, 2, 0), (4, 2, 2), (5, 5, 1), (6, 4, 4), (7, 10, 3)].map fun p =>
      pixelIndex 11 (finalX (passGeometry p.1).sx (passGeometry p.1).dx p.2.1)
        (finalY (passGeometry p.1).sy (passGeometry p.1).dy p.2.2)) = [96, 92, 52, 98, 76, 97, 87] := by decide

/-- L2.2: expected sizes of 11 × 9, and of 1 × 9 with GRAY1. -/
theorem test_expected_size :
    expectedSize 11 9 0 8 1 = 118 ∧ expectedSize 11 9 0 8 0 = 108 ∧ expectedSize 11 9 0 1 1 = 42 ∧
    expectedSize 11 9 6 16 1 = 811 ∧ expectedSize 11 9 3 4 1 = 76 ∧ expectedSize 1 9 0 1 0 = 18 := by decide

/-- L2.2: engine steps of 11 × 9 and 1 × 4. -/
theorem test_decode_steps :
    decodeSteps (configured 11 9 0 8 1 []).cfg = 144 ∧ decodeSteps (configured 11 9 0 8 0 []).cfg = 118 ∧
    decodeSteps (configured 1 4 0 8 1 []).cfg = 15 := by decide

/-- P3: after pass 1 of a 3 × 3 image the empty passes 2 and 3 are skipped. -/
theorem test_empty_passes_are_skipped :
    let s := walking (configured 3 3 0 8 1 []) .passComplete 1 1 1 2 0 true
    holds (step s) (fun t => (t.pos.pass, t.fsm, t.geo.pcols, t.geo.prows)) = some (4, .awaitingRow, 1, 1) := by decide

/-! ## Modes -/

/-- M-1: GRAY1. -/
theorem test_gray1 :
    holds (step (beforeByte 8 0 1 0 [] 0x80)) (·.out.map Prod.snd) = some [255, 0, 0, 0, 0, 0, 0, 0] := by decide

/-- M-2: GRAY2. -/
theorem test_gray2 : holds (step (beforeByte 4 0 2 0 [] 0x9C)) (·.out.map Prod.snd) = some [170, 85, 255, 0] := by decide

/-- M-3: GRAY4. -/
theorem test_gray4 : holds (step (beforeByte 2 0 4 0 [] 0x5F)) (·.out) = some [(0, 85), (4, 255)] := by decide

/-- M-4: GRAY8. -/
theorem test_gray8 : holds (step (beforeByte 1 0 8 0 [] 0x7F)) (·.out) = some [(0, 0x7F)] := by decide

/-- M-5: GRAY16. -/
theorem test_gray16 : holds (step (beforeByte 1 0 16 0 [0x12] 0x34)) (·.out) = some [(0, 0x1234)] := by decide

/-- M-6: RGB8, its third channel. -/
theorem test_rgb8 : holds (step (beforeByte 1 2 8 0 [0x10, 0x20] 0x30)) (·.out) = some [(2, 0x30)] := by decide

/-- M-7: RGB16, its third channel. -/
theorem test_rgb16 : holds (step (beforeByte 1 2 16 0 [1, 2, 3, 4, 5] 6)) (·.out) = some [(2, 0x0506)] := by decide

/-- M-8: IDX1. -/
theorem test_idx1 :
    holds (step (withPalette (beforeByte 2 3 1 0 [] 0x80) [⟨0, 0, 0⟩, ⟨255, 255, 255⟩] [])) (·.out) =
      some [(0, 255), (1, 255), (2, 255), (4, 0), (5, 0), (6, 0)] := by decide

/-- M-9: IDX2 with a transparency table. -/
theorem test_idx2 :
    holds (step (withPalette (beforeByte 4 3 2 0 [] 0x1B) [⟨0, 0, 0⟩, ⟨1, 1, 1⟩, ⟨2, 2, 2⟩, ⟨3, 3, 3⟩] [0x00, 0x40]))
      (·.out.map Prod.snd) = some [0, 0, 0, 0x00, 1, 1, 1, 0x40, 2, 2, 2, 0xFF, 3, 3, 3, 0xFF] := by decide

/-- X-24: the padding sample of a row is discarded without lookup. -/
theorem test_idx2_padding :
    holds (step (withPalette (beforeByte 3 3 2 0 [] 0x1B) [⟨0, 0, 0⟩, ⟨1, 1, 1⟩, ⟨2, 2, 2⟩] [])) (fun t => (t.fsm, t.errCode)) =
      some (.rowComplete, 0) := by decide

/-- M-10: IDX4. -/
theorem test_idx4 :
    holds (step (withPalette (beforeByte 2 3 4 0 [] 0x21) [⟨0, 0, 0⟩, ⟨10, 0, 0⟩, ⟨20, 0, 0⟩] [])) (·.out.map Prod.snd) =
      some [20, 0, 0, 10, 0, 0] := by decide

/-- M-11: IDX8. -/
theorem test_idx8 :
    holds (step (withPalette (beforeByte 1 3 8 0 [] 0x01) [⟨0, 0, 0⟩, ⟨4, 5, 6⟩] [])) (·.out.map Prod.snd) = some [4, 5, 6] := by
  decide

/-- X-23: IDX8 with an index beyond the palette. -/
theorem test_idx8_beyond_palette :
    holds (step (withPalette (beforeByte 2 3 8 0 [0x01] 0x03) [⟨1, 1, 1⟩, ⟨2, 2, 2⟩] []))
      (fun t => (t.fsm, t.errCode, t.pos.inPtr, t.pos.lbyte)) = some (.error, 11, 2, 1) := by decide

/-- M-13: GA8. -/
theorem test_ga8 : holds (step (beforeByte 1 4 8 0 [0x80] 0xFF)) (·.out) = some [(1, 0xFF)] := by decide

/-- M-14: GA16. -/
theorem test_ga16 : holds (step (beforeByte 1 4 16 0 [0x12, 0x34, 0xAB] 0xCD)) (·.out) = some [(1, 0xABCD)] := by decide

/-- M-15: RGBA8. -/
theorem test_rgba8 : holds (step (beforeByte 1 6 8 0 [1, 2, 3] 4)) (·.out) = some [(3, 4)] := by decide

/-- M-16: RGBA16. -/
theorem test_rgba16 : holds (step (beforeByte 1 6 16 0 [0, 1, 0, 2, 0, 3, 0xFF] 0xFF)) (·.out) = some [(3, 0xFFFF)] := by decide

/-! ## Commands -/

/-- K-2: NOP while BUSY. -/
theorem test_nop :
    holds (step (commanded (beforeByte 1 0 8 0 [] 7) 0)) (fun t => (t.cmdResult, t.fsm)) = some (.accepted, .unfilteringRow) := by
  decide

/-- START's bounds on the palette: X-9 to X-13. -/
theorem test_start_palette_checks :
    let c := (configured 2 1 3 1 0 [0, 0]).cfg
    c.startError ⟨64, 64, 64⟩ = some .missingPalette ∧
    { c with plteValid := true, plteCount := 3 }.startError ⟨64, 64, 64⟩ = some .invalidPalette ∧
    { c with plteValid := true, plteCount := 2 }.startError ⟨64, 64, 64⟩ = none ∧
    { c with bitDepth := 8, plteValid := true, plteCount := 256, inLen := 3 }.startError ⟨64, 64, 64⟩ = none ∧
    { c with bitDepth := 8, plteValid := true, plteCount := 257, inLen := 3 }.startError ⟨64, 64, 64⟩ = some .invalidPalette := by
  decide

/-- START's order of checks: X-15 to X-20, X-14 and S-1. -/
theorem test_start_order_of_checks :
    let c := (configured 2 1 0 8 0 [0, 0, 0]).cfg
    c.startError ⟨64, 64, 64⟩ = none ∧
    { c with width := 0, inLen := 7 }.startError ⟨64, 64, 64⟩ = some .invalidHeader ∧
    { c with colorType := 3, width := 0 }.startError ⟨64, 64, 64⟩ = some .invalidHeader ∧
    { c with inLen := 2 }.startError ⟨64, 64, 64⟩ = some .decompressionError ∧
    { c with inLen := 4 }.startError ⟨64, 64, 64⟩ = some .decompressionError ∧
    { c with inLen := 4 }.startError ⟨2, 64, 64⟩ = some .capacityError ∧
    { c with plteValid := true, plteCount := 300 }.startError ⟨64, 64, 64⟩ = none ∧
    { c with width := 0xFFFFFFFF }.startError ⟨2 ^ 40, 2 ^ 40, 2 ^ 40⟩ = some .capacityError := by decide

/-- P1's raster to RGBA8, and the STATUS word after it. -/
theorem test_convertRgba8 :
    let s := commanded (finished 2 2 0 8 [(0, 0x10), (4, 0x15), (8, 0x11), (12, 0x17)]) 2
    holds (step s) (fun t => (t.conv, t.readReg 4)) =
      some ([(0, ⟨0x10, 0x10, 0x10, 0xFF⟩), (1, ⟨0x15, 0x15, 0x15, 0xFF⟩), (2, ⟨0x11, 0x11, 0x11, 0xFF⟩),
        (3, ⟨0x17, 0x17, 0x17, 0xFF⟩)], 0x02000002) := by decide

/-- K-7: a 16-bit raster is refused. -/
theorem test_convertRgba8_refused :
    holds (step (commanded (finished 1 1 4 16 [(0, 0x1234), (1, 0xABCD)]) 2)) (·.readReg 4) = some 0x00020002 := by decide

/-- P4: A-6, and the STATUS word after it. -/
theorem test_convertRgba16 :
    holds (step (commanded (finished 1 1 4 16 [(0, 0x1234), (1, 0xABCD)]) 3)) (fun t => (t.conv, t.readReg 4)) =
      some ([(0, ⟨0x1234, 0x1234, 0x1234, 0xABCD⟩)], 0x06000002) := by decide

/-- A-1 to A-8. -/
theorem test_adapters :
    let e : Fin 4 → Half := fun ch => ![1, 2, 3, 4] ch
    adaptGray8 e = ⟨1, 1, 1, 0xFF⟩ ∧ adaptGa8 e = ⟨1, 1, 1, 2⟩ ∧ adaptRgb8 e = ⟨1, 2, 3, 0xFF⟩ ∧ adaptRgba8 e = ⟨1, 2, 3, 4⟩ ∧
    adaptGray16 e = ⟨1, 1, 1, 0xFFFF⟩ ∧ adaptGa16 e = ⟨1, 1, 1, 2⟩ ∧ adaptRgb16 e = ⟨1, 2, 3, 0xFFFF⟩ ∧
    adaptRgba16 e = ⟨1, 2, 3, 4⟩ := by decide

/-- P5c: RELEASE out of the error state, STATUS and the configuration after it. -/
theorem test_release :
    let s := commanded { configured 2 1 3 8 0 [0, 1, 3] with fsm := .error, errCode := 11 } 4
    holds (step s) (fun t => (t.readReg 4, t.readReg 0x10)) = some (0, 0x0308) := by decide

/-- K-10: an undefined opcode. -/
theorem test_undefined_opcode : holds (step (commanded machine 0xFF)) (·.readReg 4) = some 0x00030000 := by decide

/-! ## Errors, host accesses, reset -/

/-- X-22: an illegal selector at the second row; LBYTE keeps its value (R298) and DBG_BYTE reads 0 (R299). -/
theorem test_illegal_selector :
    let s := walking (configured 2 2 0 8 0 [0, 1, 2, 7, 3, 4]) .awaitingRow 0 1 2 3 0 true
    holds (step s) (fun t => (t.errCode, t.pos.inPtr, t.pos.lrow, t.pos.ftype, t.pos.lbyte, t.readReg 0x38, t.readReg 4)) =
      some (10, 3, 1, 0, 2, 0, 0x00000A03) := by decide

/-- X-21: an illegal selector at the first row. -/
theorem test_illegal_first_selector :
    let s := walking (configured 2 1 0 8 0 [5, 1, 2]) .awaitingRow 0 0 0 0 0 false
    holds (step s) (fun t => [0x30, 0x34, 0x38, 0x3C].map t.readReg) = some [6, 0, 0, 0] := by decide

/-- P1's end state: RASTER_INFO, DBG_POS, DBG_ROW, DBG_BYTE, DBG_INPTR. -/
theorem test_end_registers :
    let s := walking (configured 2 2 0 8 0 []) .done 0 2 2 6 2 true
    [0x24, 0x28, 0x2C, 0x30, 0x34, 0x38, 0x3C].map s.readReg = [0x00080100, 2, 2, 0x00001205, 2, 2, 6] := by decide

/-- K-14: a configuration write while BUSY. -/
theorem test_busy_write_dropped :
    let s := { beforeByte 1 0 8 0 [] 7 with agenda := [.host (.writeReg 8 9)] }
    holds (step s) (fun t => (t.cfg.width, t.busyWr)) = some (1, true) := by decide

/-- R-1 and R-3. -/
theorem test_reset : [0x04, 0x20, 0x24, 0x30].map machine.readReg = [0, 0, 0, 0] ∧
    holds (step (commanded machine 1)) (fun t => (t.fsm, t.errCode)) = some (.error, 6) := by decide

/-- The placed word is the one that runs: SUB latched, MODE_GRAY8 assembling, CMD written, from the state after reset. -/
theorem test_withFetchWord :
    holds (step (State.reset.withFetchWord 8 1)) (fun t => (t.fsm, t.pos.ftype)) = some (.unfilteringRow, 1) ∧
    holds (step (State.reset.withFetchWord 16 8)) (fun t => (t.fsm, t.out)) = some (.rowComplete, [(0, 0)]) ∧
    holds (step (State.reset.withFetchWord 32 5)) (·.cmdResult) = some .undefined := by decide

/-! ## States the witnesses use -/

/-- A 2 × 1 grey image, its selector about to be read. -/
def atSelector : State :=
  walking (configured 2 1 0 8 0 [0, 7, 9]) .awaitingRow 0 0 0 0 0 false

/-- The same image, its first byte written, its second next. -/
def atByte : State :=
  { walking (configured 2 1 0 8 0 [0, 7, 9]) .unfilteringRow 0 0 1 2 0 false with cur := [(0, 7)], out := [(0, 7)] }

/-- The same image, its row complete. -/
def atRowEnd : State :=
  { walking (configured 2 1 0 8 0 [0, 7, 9]) .rowComplete 0 0 2 3 0 false with
    cur := [(0, 7), (1, 9)], out := [(0, 7), (4, 9)] }

/-- The same image, its pass complete. -/
def atPassEnd : State :=
  { walking (configured 2 1 0 8 0 [0, 7, 9]) .passComplete 0 1 2 3 0 true with out := [(0, 7), (4, 9)] }

/-- The same image, with an illegal selector. -/
def atBadSelector : State :=
  walking (configured 2 1 0 8 0 [5, 7, 9]) .awaitingRow 0 0 0 0 0 false

/-- An indexed image whose second byte names no palette entry (X-23). -/
def atBadIndex : State :=
  let s := withPalette (configured 2 1 3 8 0 [0, 1, 3]) [⟨1, 1, 1⟩, ⟨2, 2, 2⟩] []
  { walking s .unfilteringRow 0 0 1 2 0 false with cur := [(0, 1)] }

/-- A row of three 4-bit samples, the last byte next: one sample of it lies outside the image. -/
def atNibbles : State :=
  { walking (configured 3 1 0 4 0 [0, 0x12, 0x30]) .unfilteringRow 0 0 1 2 0 false with cur := [(0, 0x12)] }

/-- The least implementation, at the last byte of IN and of CUR. -/
def atLastByte : State :=
  { walking (configured 1 1 0 8 0 [4, 7]) .unfilteringRow 0 0 0 1 4 false with caps := ⟨2, 1, 1⟩ }

/-- An interlaced 3 × 3 image whose pass `q` is complete. -/
def atAdam7PassEnd (q : Nat) (inPtr : Word) : State :=
  walking (configured 3 3 0 8 1 (List.replicate 15 0)) .passComplete q 1 1 inPtr 0 true

/-- A decode that failed. -/
def failed : State :=
  { machine with fsm := .error, errCode := 10 }

/-- A finished 1 × 1 grey image. -/
def done8 : State :=
  finished 1 1 0 8 [(0, 0x40)]

/-- A finished 1 × 1 grey image with 16-bit samples. -/
def done16 : State :=
  finished 1 1 0 16 [(0, 0x1234)]

/-- The same image, converted. -/
def converted8 : State :=
  { done8 with conv := [(0, ⟨0x40, 0x40, 0x40, 0xFF⟩)], convValid := true }

/-- A host action comes next. -/
def asked (s : State) (a : HostAction) : State :=
  { s with agenda := [.host a] }

/-- Samples wait at the demultiplexer, the last of them for the last element of OUT. -/
def handedOn (s : State) : State :=
  { s with samples := [⟨0, 0, 1⟩, ⟨63, 2, 1⟩] }

/-- A palette of two entries, with the index 1 handed on. -/
def handedOnIndices : State :=
  handedOn (withPalette machine [⟨1, 2, 3⟩, ⟨4, 5, 6⟩] [9, 8])

/-! ## They are sound -/

theorem sound_machine : machine.Sound :=
  ⟨by decide, by decide, by decide, by decide, by decide, by decide, by decide, by decide, fun h => absurd h (by decide),
    by decide, fun h => absurd h (by decide), fun h => absurd h (by decide)⟩

theorem sound_failed : failed.Sound :=
  ⟨by decide, by decide, by decide, by decide, by decide, by decide, by decide, by decide, fun h => absurd h (by decide),
    by decide, fun h => absurd h (by decide), fun h => absurd h (by decide)⟩

theorem sound_atSelector : atSelector.Sound :=
  ⟨by decide, by decide, by decide, by decide, by decide, by decide, by decide, by decide, fun h => absurd h (by decide),
    by decide, fun _ => ⟨by decide, by decide, by decide, by decide, by decide, by decide, by decide, by decide⟩,
    fun h => absurd h (by decide)⟩

theorem sound_atByte : atByte.Sound :=
  ⟨by decide, by decide, by decide, by decide, by decide, by decide, by decide, by decide, fun h => absurd h (by decide),
    by decide, fun _ => ⟨by decide, by decide, by decide, by decide, by decide, by decide, by decide, by decide⟩,
    fun h => absurd h (by decide)⟩

theorem sound_atRowEnd : atRowEnd.Sound :=
  ⟨by decide, by decide, by decide, by decide, by decide, by decide, by decide, by decide, fun h => absurd h (by decide),
    by decide, fun _ => ⟨by decide, by decide, by decide, by decide, by decide, by decide, by decide, by decide⟩,
    fun h => absurd h (by decide)⟩

theorem sound_atPassEnd : atPassEnd.Sound :=
  ⟨by decide, by decide, by decide, by decide, by decide, by decide, by decide, by decide, fun h => absurd h (by decide),
    by decide, fun _ => ⟨by decide, by decide, by decide, by decide, by decide, by decide, by decide, by decide⟩,
    fun h => absurd h (by decide)⟩

theorem sound_atBadSelector : atBadSelector.Sound :=
  ⟨by decide, by decide, by decide, by decide, by decide, by decide, by decide, by decide, fun h => absurd h (by decide),
    by decide, fun _ => ⟨by decide, by decide, by decide, by decide, by decide, by decide, by decide, by decide⟩,
    fun h => absurd h (by decide)⟩

theorem sound_atBadIndex : atBadIndex.Sound :=
  ⟨by decide, by decide, by decide, by decide, by decide, by decide, by decide, by decide, fun h => absurd h (by decide),
    by decide, fun _ => ⟨by decide, by decide, by decide, by decide, by decide, by decide, by decide, by decide⟩,
    fun h => absurd h (by decide)⟩

theorem sound_atNibbles : atNibbles.Sound :=
  ⟨by decide, by decide, by decide, by decide, by decide, by decide, by decide, by decide, fun h => absurd h (by decide),
    by decide, fun _ => ⟨by decide, by decide, by decide, by decide, by decide, by decide, by decide, by decide⟩,
    fun h => absurd h (by decide)⟩

theorem sound_done8 : done8.Sound :=
  ⟨by decide, by decide, by decide, by decide, by decide, by decide, by decide, by decide, fun h => absurd h (by decide),
    by decide, fun h => absurd h (by decide), fun _ => ⟨by decide, by unfold RunRegs.adaptable; decide⟩⟩

theorem sound_converted8 : converted8.Sound := by
  refine ⟨by decide, by decide, by decide, by decide, by decide, by decide, by decide, by decide, fun _ pix => ?_,
    by decide, fun h => absurd h (by decide), fun _ => ⟨by decide, by unfold RunRegs.adaptable; decide⟩⟩
  show (cellGet [(0, (⟨0x40, 0x40, 0x40, 0xFF⟩ : Rgba))] pix).isSome = true ↔ pix < 1
  cases pix <;> simp [cellGet]

/-- A sound state stays sound whatever is on its agenda. -/
theorem sound_agenda {s : State} (h : s.Sound) (e : List Event) (hi : s.fsm ≠ .idle) : ({ s with agenda := e } : State).Sound := by
  obtain ⟨h1, h2, h3, h4, h5, h6, h7, h8, h9, -, h11, h12⟩ := h
  exact ⟨h1, h2, h3, h4, h5, h6, h7, h8, h9, fun h => absurd h hi,
    fun hb => let ⟨a, b, c, d, e, f, g, i⟩ := h11 hb; ⟨a, b, c, d, e, f, g, i⟩, h12⟩

theorem sound_commanded_machine : (commanded machine 1).Sound :=
  ⟨by decide, by decide, by decide, by decide, by decide, by decide, by decide, by decide, fun h => absurd h (by decide),
    by decide, fun h => absurd h (by decide), fun h => absurd h (by decide)⟩

/-! ## Witnesses: each meets the hypotheses of the statement it is named after -/

theorem witness_ExactlyFifteenFormatsAreLegal :
    ((3 : Byte).toNat, (16 : Byte).toNat) ∉ legalPairs ∧ (configured 1 1 3 16 0 []).busy = false ∧
    (configured 1 1 3 16 0 []).cfg.colorType = 3 ∧ (configured 1 1 3 16 0 []).cfg.bitDepth = 16 := by decide

theorem witness_DecoderAndEncoderAgree : Instr.modeRgba16.wellFormed = true := by decide

theorem witness_StepRunsTheDecodedInstruction :
    (atSelector.engineNext ∧ atSelector.fsm = .awaitingRow ∧ atSelector.exhausted = false ∧
      atSelector.beginStep.fetchByte = some 0 ∧ decodeSelector 0 = .ok .filtNone) ∧
    (atByte.engineNext ∧ atByte.fsm = .unfilteringRow ∧ atByte.exhausted = false ∧
      decodeSelector (atByte.pos.ftype.setWidth 8) = .ok .filtNone ∧
      decodeMode atByte.run.ct atByte.run.bd = .ok .modeGray8) ∧
    ((commanded machine 0x101).commandNext 0x101 ∧ decodeCommand 0x101 = .ok .start) ∧
    (failed.engineNext ∧ failed.fsm = .error) :=
  ⟨⟨.inl rfl, by decide⟩, ⟨.inl rfl, by decide⟩, ⟨rfl, by decide⟩, .inl rfl, by decide⟩

theorem witness_SelectorLatchesItsFilterType :
    atSelector.fsm = .awaitingRow ∧ atRowEnd.fsm ≠ .awaitingRow ∧ atRowEnd.fsm ≠ .unfilteringRow := by decide

/-- At the last byte of IN and of CUR; and in the middle of a row. -/
theorem witness_AtDataByte : atLastByte.AtDataByte ∧ atByte.AtDataByte :=
  ⟨⟨by decide, by decide, by decide⟩, ⟨by decide, by decide, by decide⟩⟩

theorem witness_NoneCopiesTheInputByte : ∃ s : State, s.AtDataByte := ⟨_, witness_AtDataByte.1⟩

/-- A byte with a left neighbour, and one without. -/
theorem witness_SubAddsTheLeftReference :
    (atByte.AtDataByte ∧ atByte.run.bpp ≤ atByte.pos.lbyte.toNat) ∧
    (atLastByte.AtDataByte ∧ ¬ atLastByte.run.bpp ≤ atLastByte.pos.lbyte.toNat) :=
  ⟨⟨witness_AtDataByte.2, by decide⟩, witness_AtDataByte.1, by decide⟩

/-- A row with a previous row. -/
theorem witness_UpAddsTheUpReference :
    ({ atByte with pos := { atByte.pos with hasPrior := true } } : State).AtDataByte := ⟨by decide, by decide, by decide⟩

theorem witness_AvgAddsTheFlooredMean : ∃ s : State, s.AtDataByte ∧ s.run.bpp ≤ s.pos.lbyte.toNat ∧ s.pos.hasPrior = true :=
  ⟨_, witness_UpAddsTheUpReference, by decide⟩

theorem witness_PaethAddsThePredictor : ∃ s : State, s.AtDataByte ∧ s.run.bpp ≤ s.pos.lbyte.toNat ∧ s.pos.hasPrior = true :=
  witness_AvgAddsTheFlooredMean

/-- The three choices of the predictor. -/
theorem witness_PaethPicksTheNearestReference : paeth 20 10 0 = 20 ∧ paeth 10 20 0 = 20 ∧ paeth 100 50 75 = 75 := by decide

theorem witness_ReversalInvertsTheForwardFilter :
    decodeSelector ((4 : BitVec 3).setWidth 8) = .ok .filtPaeth ∧ atLastByte.AtDataByte ∧
    atLastByte.inByte atLastByte.pos.inPtr.toNat = forwardFilter 4 7 0 0 0 :=
  ⟨by decide, witness_AtDataByte.1, by decide⟩

theorem witness_SelectorsHandOnTheirSamples : Instr.filtPaeth ∈ [Instr.filtNone, .filtSub, .filtUp, .filtAvg, .filtPaeth] ∧
    atLastByte.AtDataByte := ⟨by decide, witness_AtDataByte.1⟩

theorem witness_EnterPassLoadsItsGeometry : (0 : Nat) ≤ 7 ∧ (7 : Nat) ≤ 7 := by decide

theorem witness_ExpectedSizeSumsThePasses : (0 : Byte) = 0 ∧ (1 : Byte) ≠ 0 ∧ 0 < 1 := by decide

/-- A size of exactly 2^32 - 1, one above it (S-1), and a header that is not legal. -/
theorem witness_ExpectedSizeRegisterReadsTheSize :
    (let c := (configured 0xFFFFFFFE 1 0 8 0 []).cfg
     c.headerOk = true ∧ c.expectedSize = 2 ^ 32 - 1 ∧ (c.colorType.toNat, c.bitDepth.toNat) ∈ legalPairs) ∧
    (let c := (configured 0xFFFFFFFF 1 0 8 0 []).cfg
     c.headerOk = true ∧ 2 ^ 32 - 1 < c.expectedSize) ∧
    ¬ 0 < machine.cfg.width.toNat := by decide

theorem witness_FirstPassIsTheLeastNonEmpty :
    (0 : Byte).toNat ≤ 1 ∧ (1 : Byte).toNat ≤ 1 ∧ passNonEmpty 1 1 1 = true ∧ 7 ∈ imagePasses 1 ∧ passNonEmpty 7 1 2 = true := by
  decide

/-- The last pixel of pass 7 of an 11 × 9 image. -/
theorem witness_PassesPartitionTheRaster :
    let r := (configured 11 9 0 8 1 []).cfg.latched
    LocalOf r 7 10 3 87 ∧ r.il ≠ 0 ∧ 98 < r.w.toNat * r.h.toNat :=
  ⟨⟨by decide, by decide, by decide, by decide⟩, by decide, by decide⟩

/-- An exhausted buffer, the greatest legal selector and the least illegal one. -/
theorem witness_AwaitingRowReadsASelector :
    let exhausted := { atSelector with pos := { atSelector.pos with inPtr := 3 } }
    let legal := { atSelector with inMem := [(0, 4)] }
    (exhausted.engineNext ∧ exhausted.fsm = .awaitingRow ∧ exhausted.cfg.inLen.toNat ≤ exhausted.caps.inBytes ∧
      exhausted.cfg.inLen.toNat ≤ exhausted.pos.inPtr.toNat) ∧
    (legal.engineNext ∧ legal.fsm = .awaitingRow ∧ legal.cfg.inLen.toNat ≤ legal.caps.inBytes ∧
      legal.pos.inPtr.toNat < legal.cfg.inLen.toNat ∧ (legal.beginStep.inByte legal.pos.inPtr.toNat).toNat = 4) ∧
    (atBadSelector.engineNext ∧ atBadSelector.fsm = .awaitingRow ∧ atBadSelector.cfg.inLen.toNat ≤ atBadSelector.caps.inBytes ∧
      atBadSelector.pos.inPtr.toNat < atBadSelector.cfg.inLen.toNat ∧
      (atBadSelector.beginStep.inByte atBadSelector.pos.inPtr.toNat).toNat = 5) :=
  ⟨⟨.inl rfl, by decide⟩, ⟨.inl rfl, by decide⟩, .inl rfl, by decide⟩

/-- Both outcomes: a byte that is taken, and a palette index that fails. -/
theorem witness_UnfilteringRowAdvancesOneByte :
    (atByte.Sound ∧ atByte.engineNext ∧ atByte.fsm = .unfilteringRow) ∧
    (atBadIndex.Sound ∧ atBadIndex.engineNext ∧ atBadIndex.fsm = .unfilteringRow) :=
  ⟨⟨sound_atByte, .inl rfl, by decide⟩, sound_atBadIndex, .inl rfl, by decide⟩

theorem witness_RowCompleteMakesTheRowPrior : atRowEnd.engineNext ∧ atRowEnd.fsm = .rowComplete := ⟨.inl rfl, by decide⟩

/-- The single pass, the last pass of an interlaced image, and a pass with empty ones after it. -/
theorem witness_PassCompleteEntersTheNextPass :
    (atPassEnd.engineNext ∧ atPassEnd.fsm = .passComplete ∧ atPassEnd.run.il = 0) ∧
    (let s := atAdam7PassEnd 7 15
     s.engineNext ∧ s.fsm = .passComplete ∧ s.run.il ≠ 0 ∧
      ∀ q, s.pos.pass.toNat < q → q ≤ 7 → passNonEmpty q s.run.w.toNat s.run.h.toNat = false) ∧
    (let s := atAdam7PassEnd 1 2
     s.engineNext ∧ s.fsm = .passComplete ∧ s.run.il ≠ 0 ∧ s.pos.pass.toNat < 4 ∧
      passNonEmpty 4 s.run.w.toNat s.run.h.toNat = true ∧
      ∀ p, s.pos.pass.toNat < p → p < 4 → passNonEmpty p s.run.w.toNat s.run.h.toNat = false) := by
  refine ⟨⟨.inl rfl, by decide⟩, ⟨.inl rfl, by decide, by decide, fun q h h' => ?_⟩,
    .inl rfl, by decide, by decide, by decide, by decide, fun p h h' => ?_⟩
  · have : 7 < q := h
    omega
  · have : 1 < p := h
    obtain rfl | rfl : p = 2 ∨ p = 3 := by omega
    · decide
    · decide

/-- A byte taken, an error, a host action in between, and the step into Done. -/
theorem witness_EachInputByteIsReadOnceInOrder :
    (atByte.Sound ∧ atByte.busy = true ∧ atByte.engineNext ∧ ∃ t, step atByte = .next t ∧ t.fsm ≠ .error) ∧
    (atBadIndex.Sound ∧ atBadIndex.busy = true ∧ ∃ t, step atBadIndex = .next t ∧ t.fsm = .error) ∧
    ((commanded atByte 0).Sound ∧ (commanded atByte 0).busy = true ∧ ¬ (commanded atByte 0).engineNext ∧
      ∃ t, step (commanded atByte 0) = .next t) ∧
    (atPassEnd.Sound ∧ atPassEnd.busy = true ∧ ∃ t, step atPassEnd = .next t ∧ t.fsm = .done) := by
  refine ⟨⟨sound_atByte, by decide, .inl rfl, _, rfl, by decide⟩, ⟨sound_atBadIndex, by decide, _, rfl, by decide⟩,
    ⟨sound_agenda sound_atByte _ (by decide), by decide, ?_, _, rfl⟩, sound_atPassEnd, by decide, _, rfl, by decide⟩
  rintro (h | h) <;> cases h

/-- Each bit depth of the statement. -/
theorem witness_RowBytesCompleteTheirSamples :
    (beforeByte 8 0 1 0 [] 0).run.bd.toNat ∈ [1, 2, 4] ∧ (beforeByte 8 0 4 0 [] 0).run.bd.toNat ∈ [1, 2, 4] ∧
    (beforeByte 1 0 8 0 [] 0).run.bd = 8 ∧ (beforeByte 1 0 16 0 [] 0).run.bd = 16 := by decide

theorem witness_EmittedSamplesLieInTheRaster : legalFormat atByte.run.ct atByte.run.bd = true := by decide

/-- 8 bits at the row's last byte; and 4 bits, where one sample is discarded. -/
theorem witness_OnlyRowEndSamplesAreDiscarded :
    (atByte.Sound ∧ atByte.fsm = .unfilteringRow ∧ 8 ≤ atByte.run.bd.toNat) ∧
    (atNibbles.Sound ∧ atNibbles.fsm = .unfilteringRow ∧ atNibbles.run.bd.toNat < 8 ∧
      (atNibbles.emitted atNibbles.pos.lbyte.toNat).length = 1) :=
  ⟨⟨sound_atByte, by decide⟩, sound_atNibbles, by decide⟩

theorem witness_SamplesFit : (handedOn machine).SamplesFit := by unfold State.SamplesFit; decide

theorem witness_SubByteGreyIsScaledExactly : ∃ s : State, s.SamplesFit ∧ s.samples ≠ [] := ⟨_, witness_SamplesFit, by decide⟩

theorem witness_WholeSamplesAreStoredUnchanged : ∃ s : State, s.SamplesFit ∧ s.samples ≠ [] := ⟨_, witness_SamplesFit, by decide⟩

/-- The greatest index of the palette. -/
theorem witness_IndexedSamplesWriteTheirPaletteEntry :
    handedOnIndices.SamplesFit ∧ ∀ x ∈ handedOnIndices.samples, x.v.toNat < handedOnIndices.cfg.plteCount.toNat := by
  unfold State.SamplesFit
  decide

/-- The least index beyond a palette of one entry. -/
theorem witness_IndexBeyondThePaletteRaises :
    let s := handedOn (withPalette machine [⟨1, 2, 3⟩] [])
    s.SamplesFit ∧ ∃ x ∈ s.samples, s.cfg.plteCount.toNat ≤ x.v.toNat := by
  unfold State.SamplesFit
  decide

theorem witness_TransparencyBeyondThePaletteIsIgnored :
    handedOnIndices.SamplesFit ∧ handedOnIndices.cfg.plteCount.toNat ≤ handedOnIndices.cfg.trnsCount.toNat := by
  unfold State.SamplesFit
  decide

theorem witness_RasterKindFollowsTheFormat : legalFormat 3 8 = true ∧ legalFormat 0 16 = true := by decide

/-- A configuration for each clause, in the statement's order; each earlier check holds of it. -/
theorem witness_StartChecksInTheirOrder :
    let grey := configured 2 1 0 8 0 [0, 7, 9]
    let indexed := configured 2 1 3 1 0 [0, 0]
    (grey.busy = false ∧ indexed.busy = false ∧ machine.busy = false) ∧
    (machine.cfg.width.toNat = 0 ∧ legalFormat 0 8 = true ∧ legalFormat 3 1 = true) ∧
    (indexed.cfg.colorType = 3 ∧ indexed.cfg.plteValid = false) ∧
    (let c := { indexed.cfg with plteValid := true, plteCount := 3 }
     c.plteValid = true ∧ 2 ^ c.bitDepth.toNat < c.plteCount.toNat) ∧
    (grey.cfg.expectedSize = 3 ∧ ({ grey with caps := ⟨2, 64, 64⟩ } : State).caps.inBytes < 3) ∧
    ({ grey.cfg with inLen := 2 }.startError grey.caps = some .decompressionError) ∧
    grey.cfg.startError grey.caps = none ∧ grey.cfg.inLen.toNat = grey.cfg.expectedSize := by decide

theorem witness_AcceptedStartLatchesAndBegins :
    let s := configured 3 3 0 8 1 (List.replicate 15 0)
    s.busy = false ∧ s.cfg.startError s.caps = none := by decide

theorem witness_RefusedCommandsHaveNoOtherEffect :
    atByte.busy = true ∧ atByte.fsm ≠ .done ∧ (done16.fsm = .done ∧ 8 < done16.run.bd.toNat) ∧
    (done8.fsm = .done ∧ done8.run.bd.toNat ≤ 8) := by decide

theorem witness_ConvertRgba8AdaptsEveryPixel :
    done8.fsm = .done ∧ done8.run.bd.toNat ≤ 8 ∧ done8.run.kind.channelWidth = 8 ∧ done8.pixelCount ≤ done8.caps.pixels ∧
    0 < done8.pixelCount := by decide

theorem witness_ConvertRgba16AdaptsEveryPixel :
    done16.fsm = .done ∧ 8 < done16.run.bd.toNat ∧ done16.run.kind.channelWidth = 16 ∧
    done16.pixelCount ≤ done16.caps.pixels ∧ 0 < done16.pixelCount := by decide

theorem witness_ReleaseDropsTheResult :
    atByte.busy = true ∧ (done8.busy = false ∧ done8.fsm ≠ .idle) ∧ machine.Sound ∧ machine.busy = false ∧ machine.fsm = .idle :=
  ⟨by decide, by decide, sound_machine, by decide⟩

theorem witness_UndefinedOpcodeSetsOnlyTheResult :
    (commanded atByte 0x105).commandNext 0x105 ∧ 4 < ((0x105 : Word) &&& 0xFF).toNat := ⟨rfl, by decide⟩

/-- An input write and a write to a read-only register while BUSY, a command while BUSY, and a step of the resting engine. -/
theorem witness_BusyDropsInputWrites :
    (let s := asked atByte (.writeIn 63 1)
     s.agenda.head? = some (.host (.writeIn 63 1)) ∧ s.busy = true ∧ (HostAction.writeIn 63 1).inputWrite s.caps) ∧
    ((asked atByte (.writeReg 0x3C 1)).agenda.head? = some (.host (.writeReg 0x3C 1)) ∧ 0x3C ≠ 0 ∧
      0x3C ∉ configRegisters.map Prod.fst) ∧
    ((commanded atByte 4).commandNext 4 ∧ (commanded atByte 4).busy = true ∧ decodeCommand 4 = .ok .release) ∧
    machine.engineNext ∧ (∃ t, step machine = .next t) ∧ machine.agenda.head? ≠ some .reset :=
  ⟨⟨rfl, by decide, by show 63 < 64; decide⟩, ⟨rfl, by decide⟩, ⟨rfl, by decide⟩, .inl rfl, ⟨_, rfl⟩, by decide⟩

/-- The first index outside IN; and of the offsets CMD, the least misaligned one and the first one above the registers. -/
theorem witness_WritesOutsideTheInputsHaveNoEffect :
    (asked machine (.writeIn 64 1)).agenda.head? = some (.host (.writeIn 64 1)) ∧
    (HostAction.writeIn 64 1).idleWrite machine.caps ∧
    ∀ offset ∈ [0, 1, 0x40], offset = 0 ∨ offset % 4 ≠ 0 ∨ 0x3C < offset :=
  ⟨rfl, by show 64 ≤ 64; decide, by decide⟩

theorem witness_ConfigurationReadsBackAsWritten :
    (0x1C, (0xFFFFFFFF : Word)) ∈ configRegisters ∧ machine.busy = false ∧
    (asked machine (.writeReg 0x1C 0xFFFFFFFF)).agenda.head? = some (.host (.writeReg 0x1C 0xFFFFFFFF)) := ⟨by decide, by decide, rfl⟩

/-- The last unit of each memory. -/
theorem witness_InputMemoriesReadBackAsWritten :
    machine.busy = false ∧
    ((asked machine (.writeIn 63 1)).agenda.head? = some (.host (.writeIn 63 1)) ∧ 63 < machine.caps.inBytes) ∧
    ((asked machine (.writePlte 255 ⟨1, 2, 3⟩)).agenda.head? = some (.host (.writePlte 255 ⟨1, 2, 3⟩)) ∧ 255 < 256) ∧
    (asked machine (.writeTrns 255 1)).agenda.head? = some (.host (.writeTrns 255 1)) :=
  ⟨by decide, ⟨rfl, by decide⟩, ⟨rfl, by decide⟩, rfl⟩

theorem witness_ReadsHaveNoSideEffect :
    ((asked done8 (.readReg 4)).agenda.head? = some (.host (.readReg 4)) ∧
      (asked done8 (.readReg 4)).beginStep.readValue? (.readReg 4) = some (.register 2)) ∧
    (done8.fsm = .done ∧ 0 < done8.pixelCount ∧ (0 : Fin 4).val < done8.run.kind.channelCount) ∧
    converted8.convValid = true ∧ 0 < converted8.pixelCount ∧ cellGet converted8.conv 0 = some ⟨0x40, 0x40, 0x40, 0xFF⟩ :=
  ⟨⟨rfl, by decide⟩, by decide, by decide⟩

/-- One error in each place. -/
theorem witness_ErrorsAriseInTheirThreePlaces :
    ((commanded machine 1).Sound ∧ (commanded machine 1).fsm ≠ .error ∧
      ∃ t, step (commanded machine 1) = .next t ∧ t.fsm = .error) ∧
    (atBadSelector.Sound ∧ atBadSelector.fsm ≠ .error ∧ ∃ t, step atBadSelector = .next t ∧ t.fsm = .error) ∧
    (atBadIndex.Sound ∧ atBadIndex.fsm ≠ .error ∧ ∃ t, step atBadIndex = .next t ∧ t.fsm = .error) :=
  ⟨⟨sound_commanded_machine, by decide, _, rfl, by decide⟩, ⟨sound_atBadSelector, by decide, _, rfl, by decide⟩,
    sound_atBadIndex, by decide, _, rfl, by decide⟩

theorem witness_RunTimeErrorsNameTheirByte :
    (atBadSelector.Sound ∧ atBadSelector.busy = true ∧ ∃ t, step atBadSelector = .next t ∧ t.fsm = .error ∧ t.errCode = 10) ∧
    (atBadIndex.Sound ∧ atBadIndex.busy = true ∧ ∃ t, step atBadIndex = .next t ∧ t.fsm = .error ∧ t.errCode = 11) :=
  ⟨⟨sound_atBadSelector, by decide, _, rfl, by decide⟩, sound_atBadIndex, by decide, _, rfl, by decide⟩

/-- The engine's step in Error, and RELEASE. -/
theorem witness_ErrorIsSticky :
    (failed.fsm = .error ∧ ∃ t, step failed = .next t ∧ t.fsm = .error) ∧
    ∃ t, step (commanded failed 4) = .next t ∧ t.fsm = .idle :=
  ⟨⟨by decide, _, rfl, by decide⟩, _, rfl, by decide⟩

theorem witness_ResetGivesTheResetValues :
    ({ atByte with agenda := [.reset] } : State).agenda.head? = some .reset := rfl

theorem witness_EveryStepKeepsSoundness : atByte.Sound ∧ ∃ t, step atByte = .next t := ⟨sound_atByte, _, rfl⟩

theorem witness_SoundStatesNeverStop : ∃ s : State, s.Sound ∧ s.busy = true := ⟨_, sound_atBadIndex, by decide⟩

theorem witness_EveryDecodeEndsInTime :
    ∃ s : State, s.Sound ∧ s.busy = false ∧ s.agenda = [.host (.writeReg 0 1)] ∧ s.cfg.startError s.caps = none := by
  refine ⟨commanded (configured 2 1 0 8 0 [0, 7, 9]) 1, ?_, by decide, rfl, by decide⟩
  exact ⟨by decide, by decide, by decide, by decide, by decide, by decide, by decide, by decide,
    fun h => absurd h (by decide), by decide, fun h => absurd h (by decide), fun h => absurd h (by decide)⟩

/-! ## Two rasters: half written, and complete -/

/-- The local positions of a 2 × 1 image that is not interlaced. -/
theorem localOf_two {q lx ly pix : Nat} (h : LocalOf atByte.run q lx ly pix) : q = 0 ∧ lx < 2 ∧ ly = 0 ∧ pix = lx := by
  have hp := h.pass
  have hc := h.column
  have hr := h.row
  have he := h.element
  obtain rfl : q = 0 := by simpa [imagePasses, show atByte.run.il = 0 from rfl] using hp
  change lx < 2 at hc
  change ly < 1 at hr
  obtain rfl : ly = 0 := by omega
  refine ⟨rfl, hc, rfl, ?_⟩
  rw [he]
  change (0 + 0 * 1) * 2 + (0 + lx * 1) = lx
  omega

/-- The first pixel is listed, the second is not. -/
theorem rasterTrue_atByte : atByte.RasterTrue := by
  refine ⟨by decide, fun _ q lx ly pix hL ch hch => ?_⟩
  obtain ⟨rfl, hlx, rfl, rfl⟩ := localOf_two hL
  change ch.val < 1 at hch
  obtain rfl : ch = 0 := Fin.ext (by omega)
  obtain rfl | rfl : pix = 0 ∨ pix = 1 := by omega
  · exact ⟨fun _ => .inr (.inr ⟨rfl, .inr (.inr ⟨rfl, .inr ⟨rfl, by decide⟩⟩)⟩), fun _ => rfl⟩
  · refine ⟨fun h => absurd h (by decide), ?_⟩
    rintro (h | h | ⟨-, h | h | ⟨-, h | ⟨-, h⟩⟩⟩)
    · cases h
    · exact absurd h (by decide)
    · cases h
    · exact absurd h (by decide)
    · cases h
    · exact absurd h (by decide)

theorem witness_EveryStepKeepsTheRasterTrue : atByte.Sound ∧ atByte.RasterTrue ∧ ∃ t, step atByte = .next t :=
  ⟨sound_atByte, rasterTrue_atByte, _, rfl⟩

theorem witness_NoChannelIsWrittenTwice :
    atByte.Sound ∧ atByte.RasterTrue ∧ atByte.busy = true ∧ (∃ t, step atByte = .next t ∧ t.busy = true) ∧
    cellGet atByte.out 0 = some 7 :=
  ⟨sound_atByte, rasterTrue_atByte, by decide, ⟨_, rfl, by decide⟩, by decide⟩

theorem witness_DoneRasterIsComplete : done8.RasterTrue ∧ done8.fsm = .done := by
  refine ⟨⟨by decide, fun _ q lx ly pix hL ch hch => ⟨fun _ => .inl rfl, fun _ => ?_⟩⟩, by decide⟩
  have hp := hL.pass
  have hc := hL.column
  have hr := hL.row
  have he := hL.element
  obtain rfl : q = 0 := by simpa [imagePasses, show done8.run.il = 0 from rfl] using hp
  change lx < 1 at hc
  change ly < 1 at hr
  change ch.val < 1 at hch
  obtain rfl : lx = 0 := by omega
  obtain rfl : ly = 0 := by omega
  obtain rfl : ch = 0 := Fin.ext (by omega)
  subst he
  decide

/-- A result that changes, a flag that is set and one that is cleared. -/
theorem witness_StickyFlagsHaveTheirWriters :
    (∃ t, step (commanded machine 5) = .next t ∧ t.cmdResult ≠ machine.cmdResult) ∧
    (atByte.busyWr = false ∧ ∃ t, step (asked atByte (.writeIn 0 1)) = .next t ∧ t.busyWr = true) ∧
    ∃ t, step (commanded { failed with busyWr := true } 4) = .next t ∧ t.busyWr = false :=
  ⟨⟨_, rfl, by decide⟩, ⟨by decide, _, rfl, by decide⟩, _, rfl, by decide⟩

/-- An error code that is written, and one that RELEASE clears. -/
theorem witness_StickyFlagsHaveTheirWriters_code :
    (∃ t, step atBadIndex = .next t ∧ t.errCode ≠ atBadIndex.errCode) ∧
    ∃ t, step (commanded failed 4) = .next t ∧ t.errCode ≠ failed.errCode :=
  ⟨⟨_, rfl, by decide⟩, _, rfl, by decide⟩

/-- A conversion that becomes valid, one that a refused adapter ends and one that RELEASE ends. -/
theorem witness_StickyFlagsHaveTheirWriters_conversion :
    ((commanded done8 2).Sound ∧ ∃ t, step (commanded done8 2) = .next t ∧ t.convValid ≠ done8.convValid) ∧
    ((commanded converted8 3).Sound ∧ ∃ t, step (commanded converted8 3) = .next t ∧ t.convValid ≠ converted8.convValid) ∧
    (commanded converted8 4).Sound ∧ ∃ t, step (commanded converted8 4) = .next t ∧ t.convValid ≠ converted8.convValid :=
  ⟨⟨sound_agenda sound_done8 _ (by decide), _, rfl, by decide⟩,
    ⟨sound_agenda sound_converted8 _ (by decide), _, rfl, by decide⟩,
    sound_agenda sound_converted8 _ (by decide), _, rfl, by decide⟩

end Sys2Proof.Tests
end

section
/-! SUPPORT. The host port: how a host action runs, what an access can be, and what each register reads
(`10_state.md` §2 to §4, `20_memory.md` §1 to §3). -/

namespace Sys2Proof.Machine

/-! ## A step that takes a host action -/

theorem step_host {s : State} {a : HostAction} (h : s.agenda.head? = some (.host a)) : step s = hostStep a s.beginStep := by
  simp only [step, h]

theorem hostStep_access {a : HostAction} (h : a.command? = none) (s : State) : hostStep a s = .next (s.hostAccess a) := by
  simp only [hostStep, h]

theorem command?_writeReg {offset : Nat} (h : offset ≠ 0) (v : Word) : (HostAction.writeReg offset v).command? = none := by
  cases offset with
  | zero => exact absurd rfl h
  | succ n => rfl

theorem HostAction.eq_writeReg_of_command? {a : HostAction} {value : Word} (h : a.command? = some value) :
    a = .writeReg 0 value := by
  unfold HostAction.command? at h
  split at h
  · rw [Option.some.inj h]
  · cases h

theorem commandNext_of_command? {s : State} {a : HostAction} {value : Word} (ha : s.agenda.head? = some (.host a))
    (hv : a.command? = some value) : s.commandNext value := by
  rw [State.commandNext, ha, HostAction.eq_writeReg_of_command? hv]

/-! ## The configuration registers -/

theorem configRegister_ne_zero {offset : Nat} (h : offset ∈ configRegisters.map Prod.fst) : offset ≠ 0 := by
  rintro rfl
  exact absurd h (by decide)

theorem CfgRegs.written_eq_none {offset : Nat} (h : offset ∉ configRegisters.map Prod.fst) (c : CfgRegs) (v : Word) :
    c.written offset v = none := by
  unfold CfgRegs.written
  split
  case h_7 => rfl
  all_goals exact absurd (by decide) h

theorem CfgRegs.written_isSome {offset : Nat} (h : offset ∈ configRegisters.map Prod.fst) (c : CfgRegs) (v : Word) :
    ∃ c', c.written offset v = some c' := by
  simp only [configRegisters, List.map_cons, List.map_nil, List.mem_cons, List.not_mem_nil, or_false] at h
  rcases h with rfl | rfl | rfl | rfl | rfl | rfl <;> exact ⟨_, rfl⟩

theorem writeReg_of_written {s : State} {offset : Nat} {v : Word} {c : CfgRegs} (hb : s.busy = false)
    (h : s.cfg.written offset v = some c) : s.writeReg offset v = { s with cfg := c } := by
  simp [State.writeReg, h, State.unlessBusy, hb]

/-! ## The kinds of access -/

/-- A host access that is no command is an idle write, an input write or a read. -/
theorem access_cases (s : State) {a : HostAction} (ha : a.command? = none) :
    a.idleWrite s.caps ∨ a.inputWrite s.caps ∨ ∃ v, s.readValue? a = some v := by
  cases a
  case writeReg offset v =>
    have hne : offset ≠ 0 := by rintro rfl; cases ha
    exact (em' (offset ∈ configRegisters.map Prod.fst)).imp (⟨hne, ·⟩) .inl
  case writeIn k v => exact (Nat.lt_or_ge k s.caps.inBytes).symm.imp id .inl
  case writePlte k e => exact (Nat.lt_or_ge k 256).symm.imp id .inl
  case writeTrns k v => exact (Nat.lt_or_ge k 256).symm.imp id .inl
  case writeOut => exact .inl trivial
  case writeConv => exact .inl trivial
  all_goals exact .inr (.inr ⟨_, rfl⟩)

theorem idleWrite_command? {caps : Capacity} {a : HostAction} (h : a.idleWrite caps) : a.command? = none := by
  cases a
  case writeReg offset v => exact command?_writeReg h.1 v
  all_goals rfl

theorem hostAccess_idleWrite {s : State} {a : HostAction} (h : a.idleWrite s.caps) : s.hostAccess a = s := by
  cases a
  case writeReg offset v =>
    show s.writeReg offset v = s
    rw [State.writeReg, CfgRegs.written_eq_none h.2]
  case writeIn k v => exact if_neg (Nat.not_lt.2 h)
  case writePlte k e => exact if_neg (Nat.not_lt.2 h)
  case writeTrns k v => exact if_neg (Nat.not_lt.2 h)
  case writeOut => rfl
  case writeConv => rfl
  all_goals exact h.elim

theorem hostAccess_read {s : State} {a : HostAction} {v : ReadValue} (h : s.readValue? a = some v) :
    s.hostAccess a = s.answer v := by
  cases a <;> cases h <;> rfl

/-- An input write changes the inputs of a decode alone, unless BUSY drops it. -/
theorem hostAccess_inputWrite {s : State} {a : HostAction} (h : a.inputWrite s.caps) :
    ∃ w, s.hostAccess a = s.unlessBusy w ∧
      w = { s with cfg := w.cfg, inMem := w.inMem, plte := w.plte, trns := w.trns } := by
  cases a
  case writeReg offset v =>
    obtain ⟨c, hc⟩ := CfgRegs.written_isSome h s.cfg v
    refine ⟨{ s with cfg := c }, ?_, rfl⟩
    show s.writeReg offset v = _
    rw [State.writeReg, hc]
  case writeIn k v => exact ⟨_, if_pos h, rfl⟩
  case writePlte k e => exact ⟨_, if_pos h, rfl⟩
  case writeTrns k v => exact ⟨_, if_pos h, rfl⟩
  all_goals exact h.elim

/-! ## The words of the registers

A word is an append of its fields, so a field is read by peeling off the lower ones. Nat.reduceAdd stays out of the simp set: the
append laws match on the sum of the widths, which it would evaluate. -/

/-- STATUS by its fields (R23), the reserved ones too. -/
theorem statusWord_fields (s : State) :
    s.statusWord.extractLsb' 0 2 = s.fsm.stateCode ∧ s.statusWord.extractLsb' 2 6 = 0 ∧
    s.statusWord.extractLsb' 8 8 = s.errCode ∧ s.statusWord.extractLsb' 16 2 = s.cmdResult.code ∧
    s.statusWord.extractLsb' 18 6 = 0 ∧ s.statusWord.getLsbD 24 = s.busyWr ∧ s.statusWord.getLsbD 25 = s.convValid ∧
    s.statusWord.getLsbD 26 = s.convFmt ∧ s.statusWord.extractLsb' 27 5 = 0 := by
  simp (disch := decide) [-Nat.reduceAdd, State.statusWord, flagBit, BitVec.extractLsb'_append_eq_of_le,
    BitVec.extractLsb'_append_eq_of_add_le, BitVec.getLsbD_append, -BitVec.getLsbD_eq_getElem]

/-- RASTER_INFO by its fields (R36). -/
theorem rasterInfoWord_fields (s : State) :
    s.rasterInfoWord.extractLsb' 0 3 = s.run.kind.code ∧ s.rasterInfoWord.extractLsb' 3 5 = 0 ∧
    s.rasterInfoWord.getLsbD 8 = s.rasterValid ∧ s.rasterInfoWord.extractLsb' 9 7 = 0 ∧
    s.rasterInfoWord.extractLsb' 16 8 = s.run.bd ∧ s.rasterInfoWord.extractLsb' 24 8 = s.run.ct := by
  simp (disch := decide) [-Nat.reduceAdd, State.rasterInfoWord, flagBit, BitVec.extractLsb'_append_eq_of_le,
    BitVec.extractLsb'_append_eq_of_add_le, BitVec.getLsbD_append, -BitVec.getLsbD_eq_getElem]

/-- DBG_POS by its fields (R38). -/
theorem dbgPosWord_fields (s : State) :
    s.dbgPosWord.extractLsb' 0 3 = s.fsm.code ∧ s.dbgPosWord.getLsbD 3 = false ∧
    s.dbgPosWord.extractLsb' 4 3 = s.pos.pass ∧ s.dbgPosWord.getLsbD 7 = false ∧
    s.dbgPosWord.extractLsb' 8 3 = s.pos.ftype ∧ s.dbgPosWord.getLsbD 11 = false ∧
    s.dbgPosWord.getLsbD 12 = s.pos.hasPrior ∧ s.dbgPosWord.extractLsb' 13 19 = 0 := by
  simp (disch := decide) [-Nat.reduceAdd, State.dbgPosWord, flagBit, BitVec.extractLsb'_append_eq_of_le,
    BitVec.extractLsb'_append_eq_of_add_le, BitVec.getLsbD_append, -BitVec.getLsbD_eq_getElem]

/-- CFG_FORMAT stores bits [23:0] of what is written (R31); compared bit by bit. -/
theorem formatWord_written (c : CfgRegs) (v : Word) :
    ({ c with bitDepth := v.extractLsb' 0 8, colorType := v.extractLsb' 8 8, interlace := v.extractLsb' 16 8 } :
      CfgRegs).formatWord = v &&& 0x00FFFFFF := by
  unfold CfgRegs.formatWord
  refine BitVec.eq_of_getLsbD_eq fun i hi => ?_
  simp only [BitVec.getLsbD_append, BitVec.getLsbD_and, BitVec.getLsbD_extractLsb']
  interval_cases i <;> simp

/-- CFG_PLTE and CFG_TRNS store COUNT in bits [8:0] and VALID in bit 16 (R32, R33); compared bit by bit. -/
theorem countValidWord_written (v : Word) : countValidWord (v.extractLsb' 0 9) (v.getLsbD 16) = v &&& 0x000101FF := by
  unfold countValidWord flagBit
  refine BitVec.eq_of_getLsbD_eq fun i hi => ?_
  simp only [BitVec.getLsbD_append, BitVec.getLsbD_and, BitVec.getLsbD_extractLsb']
  interval_cases i <;> simp

/-! ## Reads after a write and after reset -/

/-- A configuration register takes the bits it stores, and the other five keep theirs. -/
theorem readReg_written (s : State) {offset : Nat} {mask : Word} (h : (offset, mask) ∈ configRegisters) (v : Word) :
    ∃ c, s.cfg.written offset v = some c ∧ ({ s with cfg := c } : State).readReg offset = v &&& mask ∧
      ∀ p ∈ configRegisters, p.1 ≠ offset → ({ s with cfg := c } : State).readReg p.1 = s.readReg p.1 := by
  have whole : v = v &&& 0xFFFFFFFF := (BitVec.and_allOnes (x := v)).symm
  simp only [configRegisters, List.mem_cons, Prod.mk.injEq, List.not_mem_nil, or_false] at h
  rcases h with ⟨rfl, rfl⟩ | ⟨rfl, rfl⟩ | ⟨rfl, rfl⟩ | ⟨rfl, rfl⟩ | ⟨rfl, rfl⟩ | ⟨rfl, rfl⟩ <;>
    refine ⟨_, rfl, ?_, by simp [configRegisters, State.readReg, CfgRegs.formatWord]⟩
  · exact whole
  · exact whole
  · exact formatWord_written s.cfg v
  · exact countValidWord_written v
  · exact countValidWord_written v
  · exact whole

theorem readReg_reserved (s : State) {offset : Nat} (h : offset = 0 ∨ offset % 4 ≠ 0 ∨ 0x3C < offset) :
    s.readReg offset = 0 := by
  unfold State.readReg
  split
  case h_1 => rfl
  case h_17 => rfl
  all_goals omega

/-- R48: every register reads a word computed from fields that reset sets to 0. -/
theorem readReg_hardReset (s : State) (offset : Nat) : s.hardReset.readReg offset = 0 := by
  unfold State.readReg
  split
  case h_2 => simp [State.statusWord, flagBit, CmdResult.code, Fsm.stateCode]
  case h_5 => simp [CfgRegs.formatWord, CfgRegs.zero]
  case h_6 => simp [countValidWord, CfgRegs.zero, flagBit]
  case h_7 => simp [countValidWord, CfgRegs.zero, flagBit]
  case h_10 => simp [State.rasterInfoWord, State.rasterValid, RunRegs.zero, flagBit, RasterKind.code, beq_eq_decide]
  case h_13 => simp [State.dbgPosWord, Position.zero, flagBit, Fsm.code]
  all_goals rfl

end Sys2Proof.Machine
end

section
/-! SUPPORT. EXPECTED_SIZE (`10_state.md` R35): the header checks, the least expected size, the register's word. -/

namespace Sys2Proof.Machine

theorem legalFormat_iff {ct bd : Byte} : legalFormat ct bd = true ↔ (ct.toNat, bd.toNat) ∈ legalPairs := by
  constructor
  · intro h
    exact of_decide_eq_true (forall_legalFormat
      (test := fun ct bd => decide ((ct.toNat, bd.toNat) ∈ legalPairs)) (by decide) h)
  · intro h
    have hall : ∀ p ∈ legalPairs, legalFormat (BitVec.ofNat 8 p.1) (BitVec.ofNat 8 p.2) = true := by decide
    simpa using hall _ h

/-- The header checks (`60_exceptions.md` R293) over the pairs of R94. -/
theorem CfgRegs.headerOk_iff {c : CfgRegs} : c.headerOk = true ↔
    0 < c.width.toNat ∧ 0 < c.height.toNat ∧ c.interlace.toNat ≤ 1 ∧
      (c.colorType.toNat, c.bitDepth.toNat) ∈ legalPairs := by
  simp only [CfgRegs.headerOk, legalInterlace, Bool.and_eq_true, decide_eq_true_eq, legalFormat_iff, Nat.pos_iff_ne_zero,
    and_assoc]

theorem passCols_pos_of_start {q w : Nat} (h : (passGeometry q).sx < w) : 0 < passCols q w := by
  rw [passCols, if_pos h, lt_cdiv_iff _ _ _ (passGeometry_pos q).1]
  omega

theorem passRows_pos_of_start {q h : Nat} (hh : (passGeometry q).sy < h) : 0 < passRows q h := by
  rw [passRows, if_pos hh, lt_cdiv_iff _ _ _ (passGeometry_pos q).2]
  omega

theorem two_le_passBytes {q w h pb : Nat} (hp : 0 < pb) (hn : passNonEmpty q w h = true) : 2 ≤ passBytes q w h pb := by
  have hb := rowBytes_pos hp hn
  rw [passBytes, if_pos hn]
  simp only [passNonEmpty, Bool.and_eq_true, decide_eq_true_eq] at hn
  calc 2 = 1 * 2 := rfl
    _ ≤ passRows q h * (1 + rowBytes q w pb) := Nat.mul_le_mul hn.2 (by omega)

/-- A legal header names at least one row of one selector and one byte: pass 0 of a plain image, pass 1 of an interlaced one. -/
theorem two_le_expectedSize {w h : Nat} {ct bd : Byte} (il : Byte) (hw : 0 < w) (hh : 0 < h) (hf : legalFormat ct bd = true) :
    2 ≤ expectedSize w h ct bd il := by
  have hp := pixelBits_pos hf
  unfold expectedSize
  split
  · have hb : 0 < cdiv (w * pixelBits ct bd) 8 :=
      (lt_cdiv_iff _ _ _ (by decide)).2 (by simpa using ⟨hw, hp⟩)
    calc 2 = 1 * 2 := rfl
      _ ≤ h * (1 + cdiv (w * pixelBits ct bd) 8) := Nat.mul_le_mul hh (by omega)
  · have hn : passNonEmpty 1 w h = true := by
      simp [passNonEmpty, passCols_pos_of_start (q := 1) hw, passRows_pos_of_start (q := 1) hh]
    exact (two_le_passBytes hp hn).trans (List.le_sum_of_mem (List.mem_map.2 ⟨1, by decide, rfl⟩))

theorem readReg_expectedSize (s : State) : s.readReg 0x20 = s.cfg.expectedSizeWord := rfl

theorem toNat_expectedSizeWord {c : CfgRegs} (hc : c.headerOk = true) (hs : c.expectedSize ≤ 2 ^ 32 - 1) :
    c.expectedSizeWord.toNat = c.expectedSize := by
  rw [CfgRegs.expectedSizeWord, if_pos (by simpa [hc] using hs), BitVec.toNat_ofNat]
  exact Nat.mod_eq_of_lt (by omega)

theorem expectedSizeWord_eq_zero {c : CfgRegs} (h : c.headerOk = false ∨ 2 ^ 32 - 1 < c.expectedSize) :
    c.expectedSizeWord = 0 := by
  refine if_neg fun hc => ?_
  simp only [Bool.and_eq_true, decide_eq_true_eq] at hc
  obtain ⟨hok, hs⟩ := hc
  rcases h with h | h
  · simp [h] at hok
  · omega

end Sys2Proof.Machine
end

section
/-! SUPPORT. The status fields (`10_state.md` R25 to R28): everything one step can do to them, said once. -/

namespace Sys2Proof.Machine

/-- The status fields but CMD_RESULT are the same in both states. -/
structure SameFlags (s t : State) : Prop where
  busyWr : t.busyWr = s.busyWr
  errCode : t.errCode = s.errCode
  convValid : t.convValid = s.convValid
  convFmt : t.convFmt = s.convFmt

/-- `t` is in Error as its entry leaves it (`60_exceptions.md` R298): one of the PDE's codes and no conversion. -/
structure Raised (t : State) : Prop where
  fsm : t.fsm = .error
  errCode : t.errCode ∈ raisedCodes
  convValid : t.convValid = false
  convFmt : t.convFmt = false

/-- What a START or RELEASE outside BUSY leaves of the flags: all cleared, but for the code of a START that fails. -/
structure Restarted (s t : State) : Prop where
  notBusy : s.busy = false
  busyWr : t.busyWr = false
  errCode : Raised t ∨ t.errCode = 0
  convValid : t.convValid = false
  convFmt : t.convFmt = false

/-- What a CONVERT to `format` in DONE leaves of the status fields: the conversion, or no conversion and a refusal. -/
structure Converted (format : Bool) (s t : State) : Prop where
  done : s.fsm = .done
  busyWr : t.busyWr = s.busyWr
  errCode : t.errCode = s.errCode
  outcome : (t.cmdResult = .accepted ∧ t.convValid = true ∧ t.convFmt = format) ∨
    (t.cmdResult = .refusedAdapter ∧ t.convValid = false ∧ t.convFmt = false)

theorem DecodeError.code_mem_raisedCodes (e : DecodeError) : e.code ∈ raisedCodes := by
  cases e <;> decide

theorem State.raise_raised (s : State) (e : DecodeError) : Raised (s.raise e) :=
  ⟨rfl, e.code_mem_raisedCodes, rfl, rfl⟩

theorem State.withResult_sameFlags (s : State) (r : CmdResult) : SameFlags s (s.withResult r) :=
  ⟨rfl, rfl, rfl, rfl⟩

/-! ## The engine -/

/-- An engine step changes a status field only when a decode raises an error. -/
theorem EngineMove.status {s t : State} (h : EngineMove s t) :
    t.cmdResult = s.cmdResult ∧ (SameFlags s t ∨ (s.busy = true ∧ t.busyWr = s.busyWr ∧ Raised t)) := by
  cases h with
  | rest => exact ⟨rfl, .inl ⟨rfl, rfl, rfl, rfl⟩⟩
  | exhausted => exact ⟨rfl, .inl ⟨rfl, rfl, rfl, rfl⟩⟩
  | selector => exact ⟨rfl, .inl ⟨rfl, rfl, rfl, rfl⟩⟩
  | badSelector h => exact ⟨rfl, .inr ⟨by simp [State.busy, h], rfl, s.raise_raised _⟩⟩
  | dataByte h _ _ _ _ _ _ s₁ s₂ h₁ h₂ =>
    obtain ⟨-, y, rfl⟩ := reconstructByte_eq_next h₁
    obtain ⟨-, ⟨out, -, rfl⟩ | ⟨-, rfl⟩⟩ := runMode_eq_next h₂
    · exact ⟨by simp, .inl ⟨by simp, by simp, by simp, by simp⟩⟩
    · rw [finishByte_of_error (State.raise_fsm _ _)]
      exact ⟨rfl, .inr ⟨by simp [State.busy, h], rfl, State.raise_raised _ _⟩⟩
  | row => exact ⟨rfl, .inl ⟨rfl, rfl, rfl, rfl⟩⟩
  | pass => exact ⟨by simp, .inl ⟨by simp, by simp, by simp, by simp⟩⟩

/-! ## Accesses -/

/-- What an access does to the status fields: nothing, unless it is an input write that BUSY drops. -/
theorem hostAccess_status (s : State) {a : HostAction} (ha : a.command? = none) :
    ((s.hostAccess a).cmdResult = s.cmdResult ∧ SameFlags s (s.hostAccess a)) ∨
    (s.busy = true ∧ a.inputWrite s.caps ∧ s.hostAccess a = { s with busyWr := true }) := by
  rcases access_cases s ha with hi | hi | ⟨v, hv⟩
  · rw [hostAccess_idleWrite hi]
    exact .inl ⟨rfl, rfl, rfl, rfl, rfl⟩
  · obtain ⟨w, he, hw⟩ := hostAccess_inputWrite hi
    rw [he]
    cases hb : s.busy
    · rw [State.unlessBusy, if_neg (by simp [hb]), hw]
      exact .inl ⟨rfl, rfl, rfl, rfl, rfl⟩
    · exact .inr ⟨rfl, hi, if_pos hb⟩
  · rw [hostAccess_read hv]
    exact .inl ⟨rfl, rfl, rfl, rfl, rfl⟩

/-! ## Commands -/

theorem execStart_status {s t : State} (h : execStart s = .next t) : SameFlags s t ∨ Restarted s t := by
  rcases execStart_eq_next h with ⟨-, rfl⟩ | ⟨hb, e, -, rfl⟩ | ⟨hb, -, rfl⟩
  · exact .inl (s.withResult_sameFlags _)
  · exact .inr ⟨hb, rfl, .inl (State.raise_raised _ e), rfl, rfl⟩
  · exact .inr ⟨hb, rfl, .inr rfl, rfl, rfl⟩

theorem execRelease_status {s t : State} (h : execRelease s = .next t) : SameFlags s t ∨ Restarted s t := by
  rcases execRelease_eq_next h with ⟨-, rfl⟩ | ⟨hb, rfl⟩
  · exact .inl (s.withResult_sameFlags _)
  · exact .inr ⟨hb, rfl, .inr rfl, rfl, rfl⟩

theorem refuseAdapter_converted {s : State} (h : s.fsm = .done) (format : Bool) : Converted format s s.refuseAdapter :=
  ⟨h, rfl, rfl, .inr ⟨rfl, rfl, rfl⟩⟩

theorem convertRaster_converted {s t : State} {adapter : Option ((Fin 4 → Half) → Rgba)} {format : Bool} (hd : s.fsm = .done)
    (h : convertRaster adapter format s = .next t) : Converted format s t := by
  obtain ⟨-, adapt, -, rfl⟩ := convertRaster_eq_next h
  exact ⟨hd, rfl, rfl, .inl ⟨rfl, rfl, rfl⟩⟩

theorem execConvertRgba8_status {s t : State} (h : execConvertRgba8 s = .next t) : SameFlags s t ∨ Converted false s t := by
  rcases execConvertRgba8_eq_next h with ⟨-, rfl⟩ | ⟨hd, -, rfl⟩ | ⟨hd, -, hc⟩
  · exact .inl (s.withResult_sameFlags _)
  · exact .inr (refuseAdapter_converted hd _)
  · exact .inr (convertRaster_converted hd hc)

theorem execConvertRgba16_status {s t : State} (h : execConvertRgba16 s = .next t) : SameFlags s t ∨ Converted true s t := by
  rcases execConvertRgba16_eq_next h with ⟨-, rfl⟩ | ⟨hd, -, rfl⟩ | ⟨hd, -, hc⟩
  · exact .inl (s.withResult_sameFlags _)
  · exact .inr (refuseAdapter_converted hd _)
  · exact .inr (convertRaster_converted hd hc)

/-- A command changes a flag only as a START or RELEASE outside BUSY, or as a CONVERT in DONE. -/
theorem exec_command_status {i : Instr} {s t : State} (hi : i.format = .command) (h : exec i s = .next t) :
    SameFlags s t ∨ ((i = .start ∨ i = .release) ∧ Restarted s t) ∨
    ((i = .convertRgba8 ∨ i = .convertRgba16) ∧ Converted (decide (i = .convertRgba16)) s t) := by
  rcases exec_command hi s with ⟨rfl, he⟩ | ⟨rfl, he⟩ | ⟨rfl, he⟩ | ⟨rfl, he⟩ | ⟨rfl, he⟩ <;> rw [he] at h
  · cases h
    exact .inl (s.withResult_sameFlags _)
  · exact (execStart_status h).imp_right fun hr => .inl ⟨.inl rfl, hr⟩
  · exact (execConvertRgba8_status h).imp_right fun hc => .inr ⟨.inl rfl, hc⟩
  · exact (execConvertRgba16_status h).imp_right fun hc => .inr ⟨.inr rfl, hc⟩
  · exact (execRelease_status h).imp_right fun hr => .inl ⟨.inr rfl, hr⟩

/-! ## One step -/

/-- The next step writes to CMD a value that stands for START or RELEASE. -/
def State.restartNext (s : State) : Prop :=
  ∃ value, s.commandNext value ∧ (decodeCommand value = .ok .start ∨ decodeCommand value = .ok .release)

/-- Everything one step other than reset can do to the five status fields. -/
inductive StatusMove (s t : State) : Prop
  /-- Nothing. -/
  | kept (result : t.cmdResult = s.cmdResult) (flags : SameFlags s t)
  /-- An input write that BUSY drops. -/
  | dropped (a : HostAction) (next : s.agenda.head? = some (.host a)) (input : a.inputWrite s.caps) (busy : s.busy = true)
      (result : t.cmdResult = s.cmdResult) (flags : SameFlags { s with busyWr := true } t)
  /-- A run-time error. -/
  | raised (busy : s.busy = true) (result : t.cmdResult = s.cmdResult) (busyWr : t.busyWr = s.busyWr) (error : Raised t)
  /-- A command that changes CMD_RESULT alone. -/
  | result (value : Word) (next : s.commandNext value) (flags : SameFlags s t)
  /-- START or RELEASE outside BUSY. -/
  | restarted (next : s.restartNext) (flags : Restarted s t)
  /-- CONVERT in DONE. -/
  | converted (value : Word) (next : s.commandNext value)
      (command : decodeCommand value = .ok .convertRgba8 ∨ decodeCommand value = .ok .convertRgba16)
      (status : Converted (decide (decodeCommand value = .ok .convertRgba16)) s t)

theorem step_statusMove {s t : State} (h : step s = .next t) (hr : s.agenda.head? ≠ some .reset) : StatusMove s t := by
  rcases step_eq_next h with ⟨-, hm⟩ | ⟨a, ha, hm⟩ | ⟨hreset, -⟩
  · obtain ⟨hres, ⟨h1, h2, h3, h4⟩ | ⟨hb, hw, he⟩⟩ := hm.status
    · exact .kept hres ⟨h1, h2, h3, h4⟩
    · exact .raised hb hres hw he
  · cases hm with
    | command i value hv hd hf t hx =>
      have hn := commandNext_of_command? ha hv
      rcases exec_command_status hf hx with ⟨h1, h2, h3, h4⟩ | ⟨hi, h1, h2, h3, h4, h5⟩ | ⟨hi, h1, h2, h3, h4⟩
      · exact .result value hn ⟨h1, h2, h3, h4⟩
      · exact .restarted ⟨value, hn, by simpa [hd] using hi⟩ ⟨h1, h2, h3, h4, h5⟩
      · exact .converted value hn (by simpa [hd] using hi) ⟨h1, h2, h3, by simpa [hd] using h4⟩
    | undefined value hv =>
      exact .result value (commandNext_of_command? ha hv) ⟨rfl, rfl, rfl, rfl⟩
    | access hv =>
      rcases hostAccess_status s.beginStep hv with ⟨hres, h1, h2, h3, h4⟩ | ⟨hb, hi, he⟩
      · exact .kept hres ⟨h1, h2, h3, h4⟩
      · rw [he]
        exact .dropped a ha hi hb rfl ⟨rfl, rfl, rfl, rfl⟩
  · exact absurd hreset hr

/-! ## The writer of each field -/

section
variable {s t : State}

theorem StatusMove.cmdResult (h : StatusMove s t) (hne : t.cmdResult ≠ s.cmdResult) : ∃ value, s.commandNext value := by
  cases h with
  | kept result _ => exact absurd result hne
  | dropped _ _ _ _ result _ => exact absurd result hne
  | raised _ result _ _ => exact absurd result hne
  | result value next _ => exact ⟨value, next⟩
  | restarted next _ => exact next.imp fun _ h => h.1
  | converted value next _ _ => exact ⟨value, next⟩

theorem StatusMove.busyWr (h : StatusMove s t) (hne : t.busyWr ≠ s.busyWr) :
    (t.busyWr = true ∧ s.busy = true ∧ ∃ a, s.agenda.head? = some (.host a) ∧ a.inputWrite s.caps) ∨
    (t.busyWr = false ∧ s.busy = false ∧ s.restartNext) := by
  cases h with
  | kept _ flags => exact absurd flags.busyWr hne
  | dropped a next input busy _ flags => exact .inl ⟨flags.busyWr, busy, a, next, input⟩
  | raised _ _ busyWr _ => exact absurd busyWr hne
  | result _ _ flags => exact absurd flags.busyWr hne
  | restarted next flags => exact .inr ⟨flags.busyWr, flags.notBusy, next⟩
  | converted _ _ _ status => exact absurd status.busyWr hne

theorem StatusMove.errCode (h : StatusMove s t) (hne : t.errCode ≠ s.errCode) :
    (t.fsm = .error ∧ t.errCode ∈ raisedCodes) ∨ (t.errCode = 0 ∧ s.busy = false ∧ s.restartNext) := by
  cases h with
  | kept _ flags => exact absurd flags.errCode hne
  | dropped _ _ _ _ _ flags => exact absurd flags.errCode hne
  | raised _ _ _ error => exact .inl ⟨error.fsm, error.errCode⟩
  | result _ _ flags => exact absurd flags.errCode hne
  | restarted next flags =>
    rcases flags.errCode with he | h0
    · exact .inl ⟨he.fsm, he.errCode⟩
    · exact .inr ⟨h0, flags.notBusy, next⟩
  | converted _ _ _ status => exact absurd status.errCode hne

/-- A sound decode in progress shows no conversion, so that an error has none to clear. -/
theorem State.Sound.no_conversion_of_busy (h : s.Sound) (hb : s.busy = true) : s.convValid = false ∧ s.convFmt = false := by
  have hv : s.convValid = false := by
    by_contra hv
    rw [State.busy, h.convOfDone (by simpa using hv)] at hb
    cases hb
  refine ⟨hv, ?_⟩
  by_contra hf
  rw [h.convFormat (by simpa using hf)] at hv
  cases hv

theorem StatusMove.conversion (h : StatusMove s t) (hs : s.Sound) (hne : t.convValid ≠ s.convValid ∨ t.convFmt ≠ s.convFmt) :
    ∃ value, s.commandNext value ∧
      ((s.busy = false ∧ (decodeCommand value = .ok .start ∨ decodeCommand value = .ok .release) ∧
          t.convValid = false ∧ t.convFmt = false) ∨
       (s.fsm = .done ∧ (decodeCommand value = .ok .convertRgba8 ∨ decodeCommand value = .ok .convertRgba16) ∧
          ((t.cmdResult = .accepted ∧ t.convValid = true ∧
              t.convFmt = decide (decodeCommand value = .ok .convertRgba16)) ∨
           (t.cmdResult = .refusedAdapter ∧ t.convValid = false ∧ t.convFmt = false)))) := by
  have kept : ¬ (t.convValid = s.convValid ∧ t.convFmt = s.convFmt) := fun hk => hne.elim (· hk.1) (· hk.2)
  cases h with
  | kept _ flags => exact absurd ⟨flags.convValid, flags.convFmt⟩ kept
  | dropped _ _ _ _ _ flags => exact absurd ⟨flags.convValid, flags.convFmt⟩ kept
  | raised busy _ _ error =>
    obtain ⟨hv, hf⟩ := hs.no_conversion_of_busy busy
    exact absurd ⟨error.convValid.trans hv.symm, error.convFmt.trans hf.symm⟩ kept
  | result _ _ flags => exact absurd ⟨flags.convValid, flags.convFmt⟩ kept
  | restarted next flags =>
    obtain ⟨value, next, command⟩ := next
    exact ⟨value, next, .inl ⟨flags.notBusy, command, flags.convValid, flags.convFmt⟩⟩
  | converted value next command status =>
    exact ⟨value, next, .inr ⟨status.done, command, status.outcome⟩⟩

end

end Sys2Proof.Machine
end

section
/-! SUPPORT. The state after reset meets the invariants. -/

namespace Sys2Proof.Machine

/-- The least storage of `00_scope.md` R8. -/
theorem capacity_reset : 2 ≤ State.reset.caps.inBytes ∧ 1 ≤ State.reset.caps.pixels ∧ 1 ≤ State.reset.caps.rowBytes :=
  ⟨Nat.le_add_left .., Nat.le_add_left .., Nat.le_add_left ..⟩

theorem sound_reset : State.reset.Sound where
  capacity := capacity_reset
  memory := Memory.wf_reset
  handedOn := rfl
  filterType := by decide
  noError _ := rfl
  someError h := nomatch h
  convFormat h := nomatch h
  convOfDone h := nomatch h
  converted h := nomatch h
  idle _ := rfl
  decoding h := nomatch h
  finished h := nomatch h

theorem rasterTrue_reset : State.reset.RasterTrue where
  inside _ h := nomatch h
  exact h := h.elim (nomatch ·) (nomatch ·)

end Sys2Proof.Machine
end

section
/-! SUPPORT. The statements of `10_state.md` settled. -/

namespace Sys2Proof.Machine

/-- Settles O52: R48's table field by field, then every register read. -/
theorem resetGivesTheResetValues : Obligations.ResetGivesTheResetValues := by
  intro s h
  refine ⟨s.beginStep.hardReset, by simp only [step, h], ?_⟩
  exact ⟨rfl, rfl, rfl, rfl, rfl, rfl, rfl, rfl, rfl, rfl, rfl, rfl, rfl, rfl, rfl, rfl, rfl, readReg_hardReset _, rfl⟩

/-- Settles O53. -/
theorem resetStateIsSound : Obligations.ResetStateIsSound :=
  ⟨sound_reset, rasterTrue_reset⟩

/-- Settles O18: the header checks decide the word, and the first pass of a legal header alone holds two bytes. -/
theorem expectedSizeRegisterReadsTheSize : Obligations.ExpectedSizeRegisterReadsTheSize := by
  refine ⟨fun s => ?_, readReg_hardReset State.reset 0x20⟩
  intro c size legal
  refine ⟨fun h => ?_, fun h hs => ?_, fun h => ?_⟩
  · obtain ⟨hw, hh, -, hf⟩ := h
    exact two_le_expectedSize _ hw hh (legalFormat_iff.2 hf)
  · rw [readReg_expectedSize]
    exact toNat_expectedSizeWord (CfgRegs.headerOk_iff.2 h) hs
  · rw [readReg_expectedSize]
    refine expectedSizeWord_eq_zero (h.imp_left fun hl => ?_)
    exact Bool.eq_false_iff.2 fun hok => hl (CfgRegs.headerOk_iff.1 hok)

/-- Settles O44: such a write is an access that leaves the state as it is. -/
theorem writesOutsideTheInputsHaveNoEffect : Obligations.WritesOutsideTheInputsHaveNoEffect := by
  refine ⟨fun s a ha hw => ?_, fun s offset h => readReg_reserved s h⟩
  rw [step_host ha, hostStep_access (idleWrite_command? hw), hostAccess_idleWrite (s := s.beginStep) hw]

/-- Settles O45: outside BUSY the write is taken, and the register stores all but its reserved bits. -/
theorem configurationReadsBackAsWritten : Obligations.ConfigurationReadsBackAsWritten := by
  intro s offset mask value hm hb ha
  obtain ⟨c, hc, hread, hothers⟩ := readReg_written s.beginStep hm value
  have hne : offset ≠ 0 := configRegister_ne_zero (List.mem_map.2 ⟨_, hm, rfl⟩)
  refine ⟨{ s.beginStep with cfg := c }, ?_, hread, hothers, rfl⟩
  rw [step_host ha, hostStep_access (command?_writeReg hne value)]
  exact congrArg _ (writeReg_of_written (s := s.beginStep) hb hc)

/-- Settles O47: the three words by their fields, and each code of the model against the spec's. -/
theorem readOnlyRegistersReadTheirState : Obligations.ReadOnlyRegistersReadTheirState := by
  intro s v r d
  obtain ⟨vState, vLow, vErr, vCmd, vMid, vWr, vValid, vFmt, vHigh⟩ := statusWord_fields s
  obtain ⟨rKind, rLow, rValid, rMid, rBd, rCt⟩ := rasterInfoWord_fields s
  obtain ⟨dFsm, d3, dPass, d7, dFtype, d11, dPrior, dHigh⟩ := dbgPosWord_fields s
  refine ⟨vState.trans ?_, vLow, vErr, vCmd.trans ?_, vMid, vWr, vValid, vFmt, vHigh,
    rKind.trans ?_, rLow, rValid.trans ?_, rMid, rBd, rCt,
    dFsm.trans ?_, d3, dPass, d7, dFtype, d11, dPrior, dHigh, rfl, rfl, rfl, rfl, rfl⟩
  · cases s.fsm <;> rfl
  · cases s.cmdResult <;> rfl
  · cases s.run.kind <;> rfl
  · exact beq_eq_decide s.fsm .done
  · cases s.fsm <;> rfl

/-- Settles O60: the writer of each field, read off what one step can do. -/
theorem stickyFlagsHaveTheirWriters : Obligations.StickyFlagsHaveTheirWriters := by
  intro s t h hr
  have hm := step_statusMove h hr
  refine ⟨hm.cmdResult, fun h0 h1 => ?_, fun h1 h0 => ?_, hm.errCode, hm.conversion⟩
  · rcases hm.busyWr (by simp [h0, h1]) with ⟨-, hb, ha⟩ | ⟨hc, -⟩
    · exact ⟨hb, ha⟩
    · simp [h1] at hc
  · rcases hm.busyWr (by simp [h0, h1]) with ⟨hc, -⟩ | ⟨-, hb, hv⟩
    · simp [h0] at hc
    · exact ⟨hb, hv⟩

end Sys2Proof.Machine
end

section
/-! SUPPORT. The host's reads and its writes to the input memories (`20_memory.md` §1, §3 and §5). -/

namespace Sys2Proof.Machine

/-! ## An access as a step -/

theorem step_access {s : State} {a : HostAction} (ha : s.agenda.head? = some (.host a)) (hc : a.command? = none) :
    step s = .next (s.beginStep.hostAccess a) := by
  rw [step_host ha, hostStep_access hc]

/-- Outside BUSY a write that BUSY alone could drop is taken. -/
theorem step_unlessBusy {s w : State} {a : HostAction} (hb : s.busy = false) (ha : s.agenda.head? = some (.host a))
    (hc : a.command? = none) (hw : s.beginStep.hostAccess a = s.beginStep.unlessBusy w) : step s = .next w := by
  have hb' : s.beginStep.busy = false := hb
  rw [step_access ha hc, hw, State.unlessBusy, hb', if_neg Bool.false_ne_true]

theorem readValue?_command? {s : State} {a : HostAction} {v : ReadValue} (h : s.readValue? a = some v) : a.command? = none := by
  cases a
  case writeReg => cases h
  all_goals rfl

/-! ## A unit inside a space that something has set reads as it was set -/

theorem readIn_of_cellGet {s : State} {k : Nat} {v : Byte} (hk : k < s.caps.inBytes) (h : cellGet s.inMem k = some v) :
    s.readIn k = v := by
  rw [State.readIn, if_pos hk, State.inByte, h, Option.getD_some]

theorem readPlte_of_cellGet {s : State} {k : Nat} {e : Rgb} (hk : k < 256) (h : cellGet s.plte k = some e) :
    s.readPlte k = e := by
  rw [State.readPlte, if_pos hk, State.plteEntry, h, Option.getD_some]

theorem readTrns_of_cellGet {s : State} {k : Nat} {v : Byte} (hk : k < 256) (h : cellGet s.trns k = some v) :
    s.readTrns k = v := by
  rw [State.readTrns, if_pos hk, State.trnsByte, h, Option.getD_some]

theorem readConv_of_cellGet {s : State} {pix : Nat} {e : Rgba} (hv : s.convValid = true) (hp : pix < s.pixelCount)
    (h : cellGet s.conv pix = some e) : s.readConv pix = e := by
  simp only [State.readConv, hv, hp, decide_true, Bool.and_self, if_true, h, Option.getD_some]

/-! ## A read of OUT -/

theorem RasterKind.channelCount_le_four (k : RasterKind) : k.channelCount ≤ 4 := by
  cases k <;> decide

theorem length_readOut (s : State) (pix : Nat) : (s.readOut pix).length = s.run.kind.channelCount := by
  rw [State.readOut, List.length_map, List.length_take, List.length_finRange]
  exact Nat.min_eq_left s.run.kind.channelCount_le_four

theorem readOut_of_done {s : State} {pix : Nat} (hd : s.fsm = .done) (hp : pix < s.pixelCount) :
    s.readOut pix = ((List.finRange 4).take s.run.kind.channelCount).map (s.outChannel pix) := by
  have hr : s.outReadable pix = true := by simp [State.outReadable, hd, hp]
  simp only [State.readOut, hr, if_true]

theorem getElem?_readOut {s : State} {pix : Nat} {ch : Fin 4} (hd : s.fsm = .done) (hp : pix < s.pixelCount)
    (hc : ch.val < s.run.kind.channelCount) : (s.readOut pix)[ch.val]? = some (s.outChannel pix ch) := by
  have hch : ((List.finRange 4).take s.run.kind.channelCount)[ch.val]? = some ch := by
    rw [List.getElem?_take_of_lt hc, List.getElem?_eq_getElem (by simp), List.getElem_finRange]
    rfl
  rw [readOut_of_done hd hp, List.getElem?_map, hch, Option.map_some]

end Sys2Proof.Machine
end

section
/-! SUPPORT. The statements of `20_memory.md` settled. -/

namespace Sys2Proof.Machine

/-- Settles O46: a write inside a space sets the one unit of the memory that it names. -/
theorem inputMemoriesReadBackAsWritten : Obligations.InputMemoriesReadBackAsWritten := by
  intro s hb
  refine ⟨fun k v ha hk => ?_, fun k e ha hk => ?_, fun k v ha hk => ?_⟩
  · exact ⟨_, step_unlessBusy hb ha rfl (if_pos hk), readIn_of_cellGet hk (cellGet_cellSet_same ..),
      fun j hj => cellGet_cellSet_other _ _ hj.symm, rfl⟩
  · exact ⟨_, step_unlessBusy hb ha rfl (if_pos hk), readPlte_of_cellGet hk (cellGet_cellSet_same ..),
      fun j hj => cellGet_cellSet_other _ _ hj.symm, rfl⟩
  · exact ⟨_, step_unlessBusy hb ha rfl (if_pos hk), readTrns_of_cellGet hk (cellGet_cellSet_same ..),
      fun j hj => cellGet_cellSet_other _ _ hj.symm, rfl⟩

/-- Settles O48: a read is an access that answers its value, and a unit of OUT or CONV reads as listed. -/
theorem readsHaveNoSideEffect : Obligations.ReadsHaveNoSideEffect := by
  refine ⟨fun s a v ha hv => ?_, fun s pix hd hp ch hc => ?_, fun s pix e hv hp he => ?_⟩
  · rw [step_access ha (readValue?_command? hv), hostAccess_read hv]
    rfl
  · exact ⟨length_readOut s pix, getElem?_readOut hd hp hc⟩
  · exact readConv_of_cellGet hv hp he

end Sys2Proof.Machine
end

section
/-! SUPPORT. The decoder against the encoder (`30_encoding.md` §2, §5, §6): what each format decodes, by the bits its table
fixes. -/

namespace Sys2Proof

/-! ## Every instruction is in the table -/

theorem Laws.TableRow.statement : ∀ i, Statement i
  | .filtNone => filtNone | .filtSub => filtSub | .filtUp => filtUp | .filtAvg => filtAvg | .filtPaeth => filtPaeth
  | .nop => nop | .start => start | .convertRgba8 => convertRgba8 | .convertRgba16 => convertRgba16 | .release => release
  | .modeGray1 => modeGray1 | .modeGray2 => modeGray2 | .modeGray4 => modeGray4 | .modeGray8 => modeGray8
  | .modeGray16 => modeGray16 | .modeRgb8 => modeRgb8 | .modeRgb16 => modeRgb16
  | .modeIdx1 => modeIdx1 | .modeIdx2 => modeIdx2 | .modeIdx4 => modeIdx4 | .modeIdx8 => modeIdx8
  | .modeGa8 => modeGa8 | .modeGa16 => modeGa16 | .modeRgba8 => modeRgba8 | .modeRgba16 => modeRgba16

@[simp] theorem decode_encode (i : Instr) : decode (encode i) = .ok i :=
  let ⟨_, _, _, h⟩ := Laws.TableRow.statement i
  h

theorem exists_opcodeRow (i : Instr) : ∃ r ∈ opcodeRows i.format, r.instr = i := by
  obtain ⟨-, r, hr, -, hi⟩ := decode_eq_ok (decode_encode i)
  exact ⟨r, hr, hi⟩

/-- A row fixes the bits of its format, to those of its instruction's encoding. -/
theorem opcodeRow_eq {f : Format} {r : OpcodeRow} (hr : r ∈ opcodeRows f) :
    r.mask = (if f = .mode then 0xFFFF else 0xFF) ∧ r.pattern = (encode r.instr).bits := by
  have all : ∀ r ∈ opcodeRows f, r.mask = (if f = .mode then 0xFFFF else 0xFF) ∧ r.pattern = (encode r.instr).bits := by
    cases f <;> decide
  exact all r hr

/-- What holds of every pattern of a format holds of the encodings of its instructions. -/
theorem encode_of_opcodeRows {P : Word → Prop} {i : Instr} (all : ∀ r ∈ opcodeRows i.format, P r.pattern) :
    P (encode i).bits := by
  obtain ⟨r, hr, hi⟩ := exists_opcodeRow i
  obtain ⟨-, pattern⟩ := opcodeRow_eq hr
  rw [← hi, ← pattern]
  exact all r hr

/-! ## A word decodes by the one row that it matches -/

theorem rowMatches_iff {bits : Word} {r : OpcodeRow} : rowMatches bits r = true ↔ bits &&& r.mask = r.pattern :=
  beq_iff_eq

/-- The rows of a format are disjoint, so a word matches one of them at most. -/
theorem opcodeRow_unique {f : Format} {bits : Word} {r q : OpcodeRow} (hr : r ∈ opcodeRows f) (hq : q ∈ opcodeRows f)
    (mr : rowMatches bits r = true) (mq : rowMatches bits q = true) : r = q := by
  by_contra hne
  have : Std.Symm fun r q : OpcodeRow => r.pattern &&& q.mask ≠ q.pattern &&& r.mask := ⟨fun _ _ => Ne.symm⟩
  refine (opcodeRows_disjoint f).forall hr hq hne ?_
  rw [← rowMatches_iff.1 mr, ← rowMatches_iff.1 mq, BitVec.and_assoc, BitVec.and_assoc, BitVec.and_comm r.mask]

theorem decode_of_row {c : CodeWord} {r : OpcodeRow} (hw : c.wellFormed = true) (hr : r ∈ opcodeRows c.format)
    (hm : rowMatches c.bits r = true) : decode c = .ok r.instr := by
  obtain ⟨q, hq⟩ := Option.isSome_iff_exists.1 (List.find?_isSome.2 ⟨r, hr, hm⟩)
  obtain rfl := opcodeRow_unique hr (List.mem_of_find?_eq_some hq) hm (List.find?_some hq)
  simp only [decode, hw, if_true, hq]

/-- A code word decodes to an instruction exactly when the bits fixed for the instruction's format are its encoding's. -/
theorem decode_eq_ok_iff {c : CodeWord} {i : Instr} : decode c = .ok i ↔
    c.wellFormed = true ∧ c.format = i.format ∧ c.bits &&& (if i.format = .mode then 0xFFFF else 0xFF) = (encode i).bits := by
  constructor
  · intro h
    obtain ⟨hw, r, hr, hm, rfl⟩ := decode_eq_ok h
    obtain ⟨mask, pattern⟩ := opcodeRow_eq hr
    rw [decode_format h, ← mask, ← pattern]
    exact ⟨hw, rfl, rowMatches_iff.1 hm⟩
  · rintro ⟨hw, hf, hb⟩
    obtain ⟨r, hr, rfl⟩ := exists_opcodeRow i
    obtain ⟨mask, pattern⟩ := opcodeRow_eq hr
    rw [← mask, ← pattern] at hb
    exact decode_of_row hw (hf ▸ hr) (rowMatches_iff.2 hb)

/-- A word that fits its format and stands for no instruction is rejected by the format's name. -/
theorem decode_eq_reject {c : CodeWord} (hw : c.wellFormed = true) (h : ∀ i, decode c ≠ .ok i) :
    decode c = .error (rejectOf c.format) := by
  unfold decode at h ⊢
  rw [if_pos hw] at h ⊢
  split
  · rename_i r hr
    exact absurd (by rw [hr]) (h r.instr)
  · rfl

/-! ## Commands -/

/-- A command may be any 32-bit value. -/
theorem wellFormed_command (value : Word) : (CodeWord.mk .command value).wellFormed = true :=
  decide_eq_true value.isLt

theorem decodeCommand_eq_ok_iff {value : Word} {i : Instr} :
    decodeCommand value = .ok i ↔ i.format = .command ∧ value &&& 0xFF = (encode i).bits := by
  rw [decodeCommand, decode_eq_ok_iff]
  constructor
  · rintro ⟨-, hf, hb⟩
    rw [← hf] at hb
    exact ⟨hf.symm, hb⟩
  · rintro ⟨hf, hb⟩
    rw [hf]
    exact ⟨wellFormed_command value, rfl, hb⟩

theorem encode_command_le_four {i : Instr} (h : i.format = .command) : (encode i).bits.toNat ≤ 4 := by
  refine encode_of_opcodeRows (P := fun bits => bits.toNat ≤ 4) ?_
  rw [h]
  decide

theorem decodeCommand_undefined {value : Word} (h : 4 < (value &&& 0xFF).toNat) :
    decodeCommand value = .error .undefinedOpcode := by
  refine decode_eq_reject (wellFormed_command value) fun i hi => ?_
  obtain ⟨hf, hb⟩ := decodeCommand_eq_ok_iff.1 hi
  have := encode_command_le_four hf
  rw [← hb] at this
  omega

/-! ## Mode keys -/

/-- R102: COLOR_TYPE × 256 + BIT_DEPTH. -/
theorem toNat_modeKey (ct bd : Byte) : ((ct ++ bd).setWidth 32).toNat = 256 * ct.toNat + bd.toNat := by
  have hc := ct.isLt
  have hb := bd.isLt
  rw [BitVec.toNat_setWidth, BitVec.toNat_append, ← Nat.shiftLeft_add_eq_or_of_lt hb, Nat.shiftLeft_eq]
  omega

theorem encode_mode_legal {i : Instr} (h : i.format = .mode) :
    ((encode i).bits.toNat / 256, (encode i).bits.toNat % 256) ∈ Machine.legalPairs := by
  refine encode_of_opcodeRows (P := fun bits => (bits.toNat / 256, bits.toNat % 256) ∈ Machine.legalPairs) ?_
  rw [h]
  decide

theorem decodeMode_key {ct bd : Byte} {i : Instr} (h : decodeMode ct bd = .ok i) :
    i.format = .mode ∧ (encode i).bits.toNat = 256 * ct.toNat + bd.toNat := by
  obtain ⟨-, hf, hb⟩ := decode_eq_ok_iff.1 h
  have hi : i.format = .mode := hf.symm
  have hct := ct.isLt
  have hbd := bd.isLt
  refine ⟨hi, ?_⟩
  rw [← hb, if_pos hi, BitVec.toNat_and, toNat_modeKey]
  exact (Nat.and_two_pow_sub_one_eq_mod _ 16).trans (Nat.mod_eq_of_lt (by omega))

theorem decodeMode_legal {ct bd : Byte} {i : Instr} (h : decodeMode ct bd = .ok i) :
    (ct.toNat, bd.toNat) ∈ Machine.legalPairs := by
  obtain ⟨hf, key⟩ := decodeMode_key h
  have legal := encode_mode_legal hf
  have hbd := bd.isLt
  rwa [key, Nat.mul_add_div (by decide), Nat.mul_add_mod, Nat.div_eq_of_lt hbd, Nat.mod_eq_of_lt hbd] at legal

end Sys2Proof
end

section
/-! SUPPORT. A START that fails (`44_commands.md` R251 to R253). -/

namespace Sys2Proof.Machine

theorem execStart_of_startError {s : State} {e : DecodeError} (hb : s.busy = false) (h : s.cfg.startError s.caps = some e) :
    execStart s = .next ((s.withResult .accepted).dropPreviousResult.raise e) := by
  simp only [execStart, hb, Bool.false_eq_true, if_false, h]

theorem startFailed_raise (s : State) (e : DecodeError) :
    StartFailed s ((s.withResult .accepted).dropPreviousResult.raise e) e.code.toNat where
  error := ⟨rfl, rfl⟩
  accepted := rfl
  dropped := ⟨rfl, rfl, rfl, rfl, rfl⟩
  cleared := ⟨rfl, rfl, rfl⟩
  inputs := ⟨rfl, rfl, rfl, rfl⟩

theorem exec_start_fails {s : State} {e : DecodeError} (hb : s.busy = false) (h : s.cfg.startError s.caps = some e) :
    ∃ t, exec .start s = .next t ∧ StartFailed s t e.code.toNat :=
  ⟨_, execStart_of_startError hb h, startFailed_raise s e⟩

/-- The header checks come first (`60_exceptions.md` R293). -/
theorem CfgRegs.startError_of_not_headerOk {c : CfgRegs} (h : c.headerOk = false) (caps : Capacity) :
    c.startError caps = some .invalidHeader :=
  if_pos (by simp [h])

end Sys2Proof.Machine
end

section
/-! SUPPORT. The statements of `30_encoding.md` settled. -/

namespace Sys2Proof.Machine

/-- Settles O4: a word decodes by the one row it matches, and a row is its instruction's encoding. -/
theorem decoderAndEncoderAgree : Obligations.DecoderAndEncoderAgree :=
  ⟨fun i _ => decode_encode i, fun _ _ => decode_eq_ok_iff⟩

/-- Settles O2: the low byte is the encoding of a command, or above the last of them. -/
theorem commandIsItsLowByte : Obligations.CommandIsItsLowByte := by
  intro value
  have named {i : Instr} (hf : i.format = .command) (hb : (value &&& 0xFF).toNat = (encode i).bits.toNat) :
      decodeCommand value = .ok i :=
    decodeCommand_eq_ok_iff.2 ⟨hf, BitVec.eq_of_toNat_eq hb⟩
  split
  case h_1 h | h_2 h | h_3 h | h_4 h | h_5 h => exact named rfl h
  case h_6 _ h0 h1 h2 h3 h4 =>
    refine decodeCommand_undefined ?_
    change (_ : Nat) ≠ _ at h0 h1 h2 h3 h4
    omega

/-- Settles O3: the mode keys are the legal pairs, and a pair outside them fails the header checks, which come first. -/
theorem exactlyFifteenFormatsAreLegal : Obligations.ExactlyFifteenFormatsAreLegal := by
  intro ct bd
  refine ⟨legalFormat_iff, ⟨fun ⟨_, h⟩ => decodeMode_legal h, fun h => decodeMode_ok (legalFormat_iff.2 h)⟩, ?_⟩
  rintro illegal s hb rfl rfl
  have header : s.cfg.headerOk = false := Bool.eq_false_iff.2 fun hok =>
    let ⟨_, _, _, legal⟩ := CfgRegs.headerOk_iff.1 hok
    illegal legal
  exact exec_start_fails hb (CfgRegs.startError_of_not_headerOk header s.caps)

/-- Settles O1: each word is its instruction's encoding, but for the START with a bit above its opcode. -/
theorem tableWordsDecodeToTheirInstructions : Obligations.TableWordsDecodeToTheirInstructions :=
  ⟨decode_encode .filtNone, decode_encode .filtSub, decode_encode .filtUp, decode_encode .filtAvg, decode_encode .filtPaeth,
    decode_encode .nop, decode_encode .start, decodeCommand_eq_ok_iff.2 ⟨rfl, rfl⟩, decode_encode .convertRgba8,
    decode_encode .convertRgba16, decode_encode .release,
    decode_encode .modeGray1, decode_encode .modeGray2, decode_encode .modeGray4, decode_encode .modeGray8,
    decode_encode .modeGray16, decode_encode .modeRgb8, decode_encode .modeRgb16,
    decode_encode .modeIdx1, decode_encode .modeIdx2, decode_encode .modeIdx4, decode_encode .modeIdx8,
    decode_encode .modeGa8, decode_encode .modeGa16, decode_encode .modeRgba8, decode_encode .modeRgba16⟩

end Sys2Proof.Machine
end

section
/-! SUPPORT. The Paeth predictor (`40_defilter.md` R129): the distances of the references, and which of them it picks. -/

namespace Sys2Proof.Machine

/-- The distance of `v` from the estimate a + b - c, over the integers. -/
def paethDistance (a b c v : Byte) : Nat :=
  ((a.toNat : Int) + b.toNat - c.toNat - v.toNat).natAbs

theorem paethDistance_left (a b c : Byte) : paethDistance a b c a = ((b.toNat : Int) - c.toNat).natAbs := by
  unfold paethDistance
  omega

theorem paethDistance_up (a b c : Byte) : paethDistance a b c b = ((a.toNat : Int) - c.toNat).natAbs := by
  unfold paethDistance
  omega

theorem paethDistance_upLeft (a b c : Byte) :
    paethDistance a b c c = ((a.toNat : Int) + b.toNat - 2 * c.toNat).natAbs := by
  unfold paethDistance
  omega

theorem paeth_range (a b c : Byte) :
    -255 ≤ (a.toNat : Int) + b.toNat - c.toNat ∧ (a.toNat : Int) + b.toNat - c.toNat ≤ 510 := by
  have ha := a.isLt
  have hb := b.isLt
  have hc := c.isLt
  omega

theorem paethDistance_le {a b c v : Byte} (hv : v ∈ [a, b, c]) : paethDistance a b c v ≤ 510 := by
  have ha := a.isLt
  have hb := b.isLt
  have hc := c.isLt
  simp only [List.mem_cons, List.not_mem_nil, or_false] at hv
  rcases hv with rfl | rfl | rfl
  · rw [paethDistance_left]; omega
  · rw [paethDistance_up]; omega
  · rw [paethDistance_upLeft]; omega

theorem paeth_eq_left {a b c : Byte}
    (h : paethDistance a b c a ≤ paethDistance a b c b ∧ paethDistance a b c a ≤ paethDistance a b c c) :
    paeth a b c = a :=
  if_pos h

theorem paeth_eq_up {a b c : Byte}
    (hl : ¬ (paethDistance a b c a ≤ paethDistance a b c b ∧ paethDistance a b c a ≤ paethDistance a b c c))
    (hu : paethDistance a b c b ≤ paethDistance a b c c) : paeth a b c = b :=
  (if_neg hl).trans (if_pos hu)

theorem paeth_eq_upLeft {a b c : Byte}
    (hl : ¬ (paethDistance a b c a ≤ paethDistance a b c b ∧ paethDistance a b c a ≤ paethDistance a b c c))
    (hu : paethDistance a b c c < paethDistance a b c b) : paeth a b c = c :=
  (if_neg hl).trans (if_neg (Nat.not_le.2 hu))

/-- No reference is nearer to the estimate than the predictor. -/
theorem paethDistance_paeth_le {a b c v : Byte} (hv : v ∈ [a, b, c]) :
    paethDistance a b c (paeth a b c) ≤ paethDistance a b c v := by
  simp only [List.mem_cons, List.not_mem_nil, or_false] at hv
  by_cases hl : paethDistance a b c a ≤ paethDistance a b c b ∧ paethDistance a b c a ≤ paethDistance a b c c
  · rw [paeth_eq_left hl]
    rcases hv with rfl | rfl | rfl <;> omega
  · rcases Nat.lt_or_ge (paethDistance a b c c) (paethDistance a b c b) with hu | hu
    · rw [paeth_eq_upLeft hl hu]
      rcases hv with rfl | rfl | rfl <;> omega
    · rw [paeth_eq_up hl hu]
      rcases hv with rfl | rfl | rfl <;> omega

/-- A reference that meets the estimate is the predictor: another at distance 0 would be the same byte. -/
theorem paeth_eq_of_distance_eq_zero {a b c v : Byte} (hv : v ∈ [a, b, c]) (h : paethDistance a b c v = 0) :
    paeth a b c = v := by
  have nearest := paethDistance_paeth_le hv
  unfold paethDistance at nearest h
  exact BitVec.eq_of_toNat_eq (by omega)

/-- The first row of a pass: the left reference alone. -/
theorem paeth_left_only (a : Byte) : paeth a 0 0 = a :=
  paeth_eq_of_distance_eq_zero (by simp) (by rw [paethDistance_left]; rfl)

/-- The first pixel of a row: the up reference alone. -/
theorem paeth_up_only (b : Byte) : paeth 0 b 0 = b :=
  paeth_eq_of_distance_eq_zero (by simp) (by rw [paethDistance_up]; rfl)

theorem paeth_self (a : Byte) : paeth a a a = a :=
  paeth_eq_of_distance_eq_zero (by simp) (by rw [paethDistance_left]; omega)

end Sys2Proof.Machine
end

section
/-! SUPPORT. Filter reversal at a data byte (`40_defilter.md` R120 to R133): what a selector does with its input byte and its
references, the reversals over the natural numbers, and the forward filters. -/

namespace Sys2Proof.Machine

/-! ## A selector before a data byte -/

/-- A selector completes with CUR[LBYTE] reversed from the input byte and the three references (R120). -/
theorem runFilter_reconstructs {s : State} (h : s.AtDataByte) (ftype : BitVec 3)
    {reverse : Byte → Byte → Byte → Byte → Byte} {y : Nat}
    (hy : (reverse (s.inByte s.pos.inPtr.toNat) (s.leftRef s.pos.lbyte.toNat) (s.upRef s.pos.lbyte.toNat)
      (s.upLeftRef s.pos.lbyte.toNat)).toNat = y) :
    ∃ t, runFilter ftype reverse s = .next t ∧ Reconstructed s t y := by
  have hrun : runFilter ftype reverse s = reconstructByte reverse s := by simp only [runFilter, h.unfiltering]
  refine ⟨_, hrun.trans (reconstructByte_of_lt reverse h.input h.room), ?_, ?_, rfl⟩
  · rw [cellGet_cellSet_same, Option.map_some, hy]
  · exact fun j hj => cellGet_cellSet_other _ _ hj.symm

/-- A filter instruction is a selector at work with the type that encodes it, and reverses by that type (R120). -/
theorem exec_filter_recon {f : Instr} (h : f.format = .filter) (s : State) :
    exec f s = runFilter ((encode f).bits.setWidth 3) (recon ((encode f).bits.setWidth 3)) s := by
  cases f
  case filtNone | filtSub | filtUp | filtAvg | filtPaeth => rfl
  all_goals cases h

/-- FTYPE is the encoding of the filter instruction that it decodes to. -/
theorem decodeSelector_ftype {ft : BitVec 3} {f : Instr} (h : decodeSelector (ft.setWidth 8) = .ok f) :
    f.format = .filter ∧ ft = (encode f).bits.setWidth 3 := by
  obtain ⟨-, hf, hb⟩ := decode_eq_ok_iff.1 h
  have hfilter : f.format = .filter := hf.symm
  have low : ∀ t : BitVec 3, t = (((t.setWidth 8).setWidth 32 : Word) &&& 0xFF).setWidth 3 := by decide
  rw [← hb, hfilter]
  exact ⟨rfl, low ft⟩

/-- What FTYPE decodes to runs as the selector of that type. -/
theorem exec_of_decodeSelector {ft : BitVec 3} {f : Instr} (h : decodeSelector (ft.setWidth 8) = .ok f) (s : State) :
    exec f s = runFilter ft (recon ft) s := by
  obtain ⟨hf, rfl⟩ := decodeSelector_ftype h
  exact exec_filter_recon hf s

/-! ## The references and the reversals over the natural numbers -/

theorem toNat_leftRef (s : State) (i : Nat) :
    (s.leftRef i).toNat = if s.run.bpp ≤ i then (s.curByte (i - s.run.bpp)).toNat else 0 :=
  apply_ite BitVec.toNat ..

theorem toNat_upRef (s : State) (i : Nat) :
    (s.upRef i).toNat = if s.pos.hasPrior = true then (s.priorByte i).toNat else 0 :=
  apply_ite BitVec.toNat ..

/-- Half the 9-bit sum fits a byte (R128). -/
theorem toNat_average (a b : Byte) : (average a b).toNat = (a.toNat + b.toNat) / 2 := by
  have ha := a.isLt
  have hb := b.isLt
  rw [average, BitVec.toNat_ofNat]
  omega

theorem toNat_reconSub (x a b c : Byte) : (reconSub x a b c).toNat = (x.toNat + a.toNat) % 256 :=
  BitVec.toNat_add x a

theorem toNat_reconUp (x a b c : Byte) : (reconUp x a b c).toNat = (x.toNat + b.toNat) % 256 :=
  BitVec.toNat_add x b

theorem toNat_reconAvg (x a b c : Byte) : (reconAvg x a b c).toNat = (x.toNat + (a.toNat + b.toNat) / 2) % 256 := by
  rw [← toNat_average]
  exact BitVec.toNat_add x (average a b)

theorem toNat_reconPaeth (x a b c : Byte) : (reconPaeth x a b c).toNat = (x.toNat + (paeth a b c).toNat) % 256 :=
  BitVec.toNat_add x (paeth a b c)

theorem reconPaeth_left_only (x a : Byte) : reconPaeth x a 0 0 = reconSub x a 0 0 :=
  congrArg (x + ·) (paeth_left_only a)

theorem reconPaeth_up_only (x b : Byte) : reconPaeth x 0 b 0 = reconUp x 0 b 0 :=
  congrArg (x + ·) (paeth_up_only b)

/-! ## The forward filters (R133) -/

/-- Subtraction of bytes as R133 writes it. -/
theorem toNat_byte_sub (y v : Byte) : (y - v).toNat = (y.toNat + 256 - v.toNat) % 256 := by
  have hv := v.isLt
  rw [BitVec.toNat_sub]
  omega

/-- Each reversal undoes its forward filter: it adds what the filter subtracted. -/
theorem recon_forwardFilter (ft : BitVec 3) (y a b c : Byte) : recon ft (forwardFilter ft y a b c) a b c = y := by
  unfold forwardFilter
  split
  case h_1 h => simp only [recon, h, reconSub, BitVec.sub_add_cancel]
  case h_2 h => simp only [recon, h, reconUp, BitVec.sub_add_cancel]
  case h_3 h => simp only [recon, h, reconAvg, BitVec.sub_add_cancel]
  case h_4 h => simp only [recon, h, reconPaeth, BitVec.sub_add_cancel]
  case h_5 => simp only [recon, reconNone]

end Sys2Proof.Machine
end

section
/-! SUPPORT. The statements of `40_defilter.md` on the five reversals settled. -/

namespace Sys2Proof.Machine

/-- Settles O7: the reversal of NONE is the input byte itself. -/
theorem noneCopiesTheInputByte : Obligations.NoneCopiesTheInputByte :=
  ⟨decode_encode .filtNone, fun _ h => runFilter_reconstructs h 0 rfl⟩

/-- Settles O8: the carry out of bit 7 is lost in the byte addition. -/
theorem subAddsTheLeftReference : Obligations.SubAddsTheLeftReference :=
  ⟨decode_encode .filtSub, fun _ h => runFilter_reconstructs h 1 (by rw [toNat_reconSub, toNat_leftRef])⟩

/-- Settles O9: as SUB, with the up reference at every byte of the row. -/
theorem upAddsTheUpReference : Obligations.UpAddsTheUpReference :=
  ⟨decode_encode .filtUp, fun _ h => runFilter_reconstructs h 2 (by rw [toNat_reconUp, toNat_upRef])⟩

/-- Settles O10: the mean is formed over the natural numbers and fits a byte. -/
theorem avgAddsTheFlooredMean : Obligations.AvgAddsTheFlooredMean :=
  ⟨decode_encode .filtAvg, fun _ h =>
    runFilter_reconstructs h 3 (by rw [toNat_reconAvg, toNat_leftRef, toNat_upRef])⟩

/-- Settles O11: in the corner cases the estimate meets a reference, which is then the predictor. -/
theorem paethAddsThePredictor : Obligations.PaethAddsThePredictor :=
  ⟨decode_encode .filtPaeth, fun _ h => runFilter_reconstructs h 4 (toNat_reconPaeth ..),
    reconPaeth_left_only, reconPaeth_up_only, paeth_self, by decide⟩

/-- Settles O12, clause by clause from the distances of the references. -/
theorem paethPicksTheNearestReference : Obligations.PaethPicksTheNearestReference := by
  intro a b c
  have left : a ∈ [a, b, c] := by simp
  have up : b ∈ [a, b, c] := by simp
  have upLeft : c ∈ [a, b, c] := by simp
  obtain ⟨low, high⟩ := paeth_range a b c
  exact ⟨⟨low, high, paethDistance_le left, paethDistance_le up, paethDistance_le upLeft⟩,
    ⟨paethDistance_left a b c, paethDistance_up a b c, paethDistance_upLeft a b c⟩,
    ⟨paethDistance_paeth_le left, paethDistance_paeth_le up, paethDistance_paeth_le upLeft⟩,
    paeth_eq_left, paeth_eq_up, paeth_eq_upLeft⟩

/-- Settles O13: FTYPE runs its own reversal, which undoes the forward filter of the same type. -/
theorem reversalInvertsTheForwardFilter : Obligations.ReversalInvertsTheForwardFilter := by
  refine ⟨?_, fun y a b c => ?_⟩
  · intro ft f hf s h y i a b c hx
    have undone : recon ft (s.inByte s.pos.inPtr.toNat) a b c = y := by rw [hx, recon_forwardFilter]
    rw [exec_of_decodeSelector hf]
    exact runFilter_reconstructs h ft (congrArg BitVec.toNat undone)
  · refine ⟨rfl, toNat_byte_sub y a, toNat_byte_sub y b, ?_, toNat_byte_sub y (paeth a b c)⟩
    rw [← toNat_average]
    exact toNat_byte_sub y (average a b)

end Sys2Proof.Machine
end

section
/-! SUPPORT. The pass geometry (`41_adam7.md` §1 to §3): the counts of a pass, the expected size as a sum over passes, and the
first and the next pass. -/

namespace Sys2Proof.Machine

/-! ## The table -/

/-- PASS holds every pass index (`10_state.md` R40). -/
theorem ofNat_three_toNat {q : Nat} (h : q ≤ 7) : (BitVec.ofNat 3 q).toNat = q := by
  rw [BitVec.toNat_ofNat]
  exact Nat.mod_eq_of_lt (by omega)

/-- R150 and R151 as a table. -/
theorem passGeometry_table {q : Nat} (h : q ≤ 7) :
    [(0, 0, 1, 1), (0, 0, 8, 8), (4, 0, 8, 8), (0, 4, 4, 8), (2, 0, 4, 4), (0, 2, 2, 4), (1, 0, 2, 2), (0, 1, 1, 2)][q]? =
      some ((passGeometry q).sx, (passGeometry q).sy, (passGeometry q).dx, (passGeometry q).dy) := by
  interval_cases q <;> rfl

/-! ## The counts of a pass -/

/-- R159 for columns. -/
theorem lt_passCols_iff {q w k : Nat} : k < passCols q w ↔ finalX (passGeometry q).sx (passGeometry q).dx k < w := by
  unfold passCols finalX
  split
  · rw [lt_cdiv_iff _ _ _ (passGeometry_pos q).1]
    omega
  · omega

/-- R159 for rows. -/
theorem lt_passRows_iff {q h k : Nat} : k < passRows q h ↔ finalY (passGeometry q).sy (passGeometry q).dy k < h := by
  unfold passRows finalY
  split
  · rw [lt_cdiv_iff _ _ _ (passGeometry_pos q).2]
    omega
  · omega

theorem passNonEmpty_iff {q w h : Nat} : passNonEmpty q w h = true ↔ 0 < passCols q w ∧ 0 < passRows q h := by
  simp [passNonEmpty]

theorem passNonEmpty_of_start {q w h : Nat} (hx : (passGeometry q).sx < w) (hy : (passGeometry q).sy < h) :
    passNonEmpty q w h = true :=
  passNonEmpty_iff.2 ⟨passCols_pos_of_start hx, passRows_pos_of_start hy⟩

/-! ## The expected size -/

theorem imagePasses_of_plain : imagePasses 0 = [0] := rfl

theorem imagePasses_of_interlaced {il : Byte} (h : il ≠ 0) : imagePasses il = laterPasses 0 :=
  if_neg h

/-- The single pass of a plain image holds all of its rows. -/
theorem passBytes_zero {w h : Nat} (pb : Nat) (hw : 0 < w) (hh : 0 < h) : passBytes 0 w h pb = h * (1 + cdiv (w * pb) 8) := by
  rw [passBytes, if_pos (passNonEmpty_of_start hw hh), rowBytes, passRows_zero, passCols_zero]

theorem passBytes_of_nonEmpty {q w h : Nat} (pb : Nat) (hn : passNonEmpty q w h = true) :
    passBytes q w h pb = passRows q h * (1 + rowBytes q w pb) :=
  if_pos hn

theorem expectedSize_eq_sum {w h : Nat} (ct bd il : Byte) (hw : 0 < w) (hh : 0 < h) :
    expectedSize w h ct bd il = ((imagePasses il).map (passBytes · w h (pixelBits ct bd))).sum := by
  unfold expectedSize
  split
  case isTrue h0 =>
    rw [h0, imagePasses_of_plain, List.map_singleton, List.sum_singleton, passBytes_zero _ hw hh]
  case isFalse h0 => rw [imagePasses_of_interlaced h0]

/-! ## The first pass and the next -/

/-- Passes 0 and 1 start at the origin, so neither is empty in an image that is not. -/
theorem find?_imagePasses {w h : Nat} (il : Byte) (hw : 0 < w) (hh : 0 < h) :
    (imagePasses il).find? (passNonEmpty · w h) = some (if il = 0 then 0 else 1) := by
  split
  case isTrue h0 =>
    rw [h0]
    exact List.find?_cons_of_pos (passNonEmpty_of_start (q := 0) hw hh)
  case isFalse h0 =>
    rw [imagePasses_of_interlaced h0]
    exact List.find?_cons_of_pos (passNonEmpty_of_start (q := 1) hw hh)

theorem firstPass_eq {w h : Nat} (il : Byte) (hw : 0 < w) (hh : 0 < h) : firstPass il w h = if il = 0 then 0 else 1 := by
  rw [firstPass, find?_imagePasses il hw hh, Option.getD_some]

theorem find?_firstPass {w h : Nat} (il : Byte) (hw : 0 < w) (hh : 0 < h) :
    (imagePasses il).find? (passNonEmpty · w h) = some (firstPass il w h) := by
  rw [firstPass_eq il hw hh, find?_imagePasses il hw hh]

theorem firstPass_mem {w h : Nat} (il : Byte) (hw : 0 < w) (hh : 0 < h) : firstPass il w h ∈ imagePasses il :=
  List.mem_of_find?_eq_some (find?_firstPass il hw hh)

theorem firstPass_nonEmpty {w h : Nat} (il : Byte) (hw : 0 < w) (hh : 0 < h) : passNonEmpty (firstPass il w h) w h = true :=
  List.find?_some (p := (passNonEmpty · w h)) (find?_firstPass il hw hh)

theorem firstPass_le {w h q : Nat} {il : Byte} (hw : 0 < w) (hh : 0 < h) (hq : q ∈ imagePasses il) : firstPass il w h ≤ q := by
  rw [firstPass_eq il hw hh]
  split
  · exact Nat.zero_le q
  · rw [imagePasses_of_interlaced ‹_›] at hq
    exact (mem_laterPasses.1 hq).1

theorem nextPass_eq_none_iff {p w h : Nat} :
    nextPass p w h = none ↔ ∀ q, p < q → q ≤ 7 → passNonEmpty q w h = false := by
  rw [nextPass, List.find?_eq_none]
  constructor
  · intro hn q hp hq
    simpa using hn q (mem_laterPasses.2 ⟨hp, by omega, hq⟩)
  · intro hn q hq
    obtain ⟨hp, -, hq⟩ := mem_laterPasses.1 hq
    simp [hn q hp hq]

/-- The next pass is the least later one that is not empty (R165). -/
theorem nextPass_eq_some_iff {p q w h : Nat} :
    nextPass p w h = some q ↔
      p < q ∧ q ≤ 7 ∧ passNonEmpty q w h = true ∧ ∀ r, p < r → r < q → passNonEmpty r w h = false := by
  have sorted := laterPasses_pairwise p
  constructor
  · intro hq
    obtain ⟨hp, -, h7⟩ := mem_laterPasses.1 (List.mem_of_find?_eq_some hq)
    refine ⟨hp, h7, List.find?_some (p := (passNonEmpty · w h)) hq, fun r hr hrq => ?_⟩
    obtain ⟨-, before, after, hl, hb⟩ := List.find?_eq_some_iff_append.1 hq
    have hmem : r ∈ laterPasses p := mem_laterPasses.2 ⟨hr, by omega, by omega⟩
    rw [hl] at hmem sorted
    have hafter := (List.pairwise_append.1 sorted).2.1
    rcases List.mem_append.1 hmem with hm | hm
    · simpa using hb r hm
    · rcases List.mem_cons.1 hm with rfl | hm
      · omega
      · have := (List.pairwise_cons.1 hafter).1 r hm
        omega
  · rintro ⟨hp, h7, hn, hleast⟩
    have hmem : q ∈ laterPasses p := mem_laterPasses.2 ⟨hp, by omega, h7⟩
    obtain ⟨before, after, hl⟩ := List.append_of_mem hmem
    refine List.find?_eq_some_iff_append.2 ⟨hn, before, after, hl, fun r hr => ?_⟩
    rw [hl] at sorted
    have hrq := (List.pairwise_append.1 sorted).2.2 r hr q (by simp)
    have hrp := (mem_laterPasses.1 (hl ▸ List.mem_append_left _ hr : r ∈ laterPasses p)).1
    simp [hleast r hrp hrq]

end Sys2Proof.Machine
end

section
/-! SUPPORT. The passes partition the raster (`41_adam7.md` R169). A column belongs to a pass by its residue modulo 8, since every
step divides 8, and so does a row; the 64 pairs of residues are the Adam7 tile. -/

namespace Sys2Proof.Machine

/-! ## Elements of the raster -/

theorem pixelIndex_div {w fx fy : Nat} (hx : fx < w) : pixelIndex w fx fy / w = fy := by
  rw [pixelIndex, Nat.mul_comm, Nat.mul_add_div (by omega), Nat.div_eq_of_lt hx, Nat.add_zero]

theorem pixelIndex_mod {w fx fy : Nat} (hx : fx < w) : pixelIndex w fx fy % w = fx := by
  rw [pixelIndex, Nat.mul_comm, Nat.mul_add_mod, Nat.mod_eq_of_lt hx]

theorem pixelIndex_mod_div (w pix : Nat) : pixelIndex w (pix % w) (pix / w) = pix := by
  rw [pixelIndex, Nat.mul_comm, Nat.div_add_mod]

/-! ## Residues modulo 8 -/

theorem passGeometry_dvd (q : Nat) : (passGeometry q).dx ∣ 8 ∧ (passGeometry q).dy ∣ 8 := by
  unfold passGeometry
  split <;> decide

/-- The residue of a position decides the residue of its local one. -/
theorem step_mod_eight (start step k : Nat) : (start + k * step) % 8 = (start + k % 8 * step) % 8 := by
  simp [Nat.add_mod, Nat.mul_mod]

/-- A position whose residue a step that divides 8 reaches is reached by it. -/
theorem exists_step_of_residue {start step x : Nat} (hd : step ∣ 8) (hs : start ≤ x % 8) (hr : step ∣ x % 8 - start) :
    ∃ k, x = start + k * step := by
  have hsum : step ∣ 8 * (x / 8) + (x % 8 - start) := (hd.mul_right _).add hr
  obtain ⟨k, hk⟩ := hsum
  refine ⟨k, ?_⟩
  rw [Nat.mul_comm k, ← hk]
  omega

/-- The pass the tile names for a final position. -/
def tilePass (x y : Nat) : Option Nat :=
  adam7Tile[y % 8]?.bind fun row => row[x % 8]?

theorem tilePass_mod (x y : Nat) : tilePass (x % 8) (y % 8) = tilePass x y := by
  simp [tilePass]

/-- Every local position of a pass has the pass as its entry of the tile. -/
theorem tilePass_final {q : Nat} (hq : q ∈ laterPasses 0) (lx ly : Nat) :
    tilePass (finalX (passGeometry q).sx (passGeometry q).dx lx) (finalY (passGeometry q).sy (passGeometry q).dy ly) = some q := by
  have residues : ∀ q ∈ laterPasses 0, ∀ a < 8, ∀ b < 8,
      tilePass ((passGeometry q).sx + a * (passGeometry q).dx) ((passGeometry q).sy + b * (passGeometry q).dy) = some q := by
    decide
  rw [finalX, finalY, ← tilePass_mod, step_mod_eight _ _ lx, step_mod_eight _ _ ly, tilePass_mod]
  exact residues q hq _ (Nat.mod_lt _ (by decide)) _ (Nat.mod_lt _ (by decide))

/-- Every position is a local position of one of the passes 1 to 7. -/
theorem exists_adam7_position (x y : Nat) :
    ∃ q ∈ laterPasses 0, ∃ lx ly, x = finalX (passGeometry q).sx (passGeometry q).dx lx ∧
      y = finalY (passGeometry q).sy (passGeometry q).dy ly := by
  have residues : ∀ a < 8, ∀ b < 8, ∃ q ∈ laterPasses 0,
      ((passGeometry q).sx ≤ a ∧ (passGeometry q).dx ∣ a - (passGeometry q).sx) ∧
      ((passGeometry q).sy ≤ b ∧ (passGeometry q).dy ∣ b - (passGeometry q).sy) := by
    decide
  obtain ⟨q, hq, ⟨hsx, hdx⟩, hsy, hdy⟩ := residues _ (Nat.mod_lt x (by decide)) _ (Nat.mod_lt y (by decide))
  obtain ⟨lx, hlx⟩ := exists_step_of_residue (passGeometry_dvd q).1 hsx hdx
  obtain ⟨ly, hly⟩ := exists_step_of_residue (passGeometry_dvd q).2 hsy hdy
  exact ⟨q, hq, lx, ly, hlx, hly⟩

/-! ## Local positions -/

/-- A local position in the image, by the final position it maps to. -/
theorem localOf_iff {r : RunRegs} {q lx ly pix : Nat} :
    LocalOf r q lx ly pix ↔ q ∈ imagePasses r.il ∧
      finalX (passGeometry q).sx (passGeometry q).dx lx < r.w.toNat ∧
      finalY (passGeometry q).sy (passGeometry q).dy ly < r.h.toNat ∧
      pix = pixelIndex r.w.toNat (finalX (passGeometry q).sx (passGeometry q).dx lx)
        (finalY (passGeometry q).sy (passGeometry q).dy ly) := by
  rw [← lt_passCols_iff, ← lt_passRows_iff]
  exact ⟨fun ⟨hq, hx, hy, he⟩ => ⟨hq, hx, hy, he⟩, fun ⟨hq, hx, hy, he⟩ => ⟨hq, hx, hy, he⟩⟩

section
variable {r : RunRegs} {q lx ly pix : Nat}

theorem LocalOf.lt (h : LocalOf r q lx ly pix) : pix < r.w.toNat * r.h.toNat := by
  obtain ⟨-, hx, hy, rfl⟩ := localOf_iff.1 h
  exact pixelIndex_lt hx hy

theorem LocalOf.nonEmpty (h : LocalOf r q lx ly pix) : passNonEmpty q r.w.toNat r.h.toNat = true :=
  passNonEmpty_iff.2 ⟨Nat.zero_lt_of_lt h.column, Nat.zero_lt_of_lt h.row⟩

/-- The final position of a local one, read off its element. -/
theorem LocalOf.final (h : LocalOf r q lx ly pix) :
    pix % r.w.toNat = finalX (passGeometry q).sx (passGeometry q).dx lx ∧
    pix / r.w.toNat = finalY (passGeometry q).sy (passGeometry q).dy ly := by
  obtain ⟨-, hx, -, rfl⟩ := localOf_iff.1 h
  exact ⟨pixelIndex_mod hx, pixelIndex_div hx⟩

/-- In an interlaced image the tile names the pass. -/
theorem LocalOf.tile (h : LocalOf r q lx ly pix) (hi : r.il ≠ 0) :
    tilePass (pix % r.w.toNat) (pix / r.w.toNat) = some q := by
  obtain ⟨hx, hy⟩ := h.final
  rw [hx, hy]
  exact tilePass_final (imagePasses_of_interlaced hi ▸ h.pass) lx ly

/-- A raster element is reached from one local position at most. -/
theorem LocalOf.unique {q' lx' ly' : Nat} (h : LocalOf r q lx ly pix) (h' : LocalOf r q' lx' ly' pix) :
    q' = q ∧ lx' = lx ∧ ly' = ly := by
  have pass : q' = q := by
    by_cases hi : r.il = 0
    · have hq := h.pass
      have hq' := h'.pass
      rw [hi, imagePasses_of_plain, List.mem_singleton] at hq hq'
      rw [hq, hq']
    · exact Option.some.inj ((h'.tile hi).symm.trans (h.tile hi))
  subst pass
  obtain ⟨hx, hy⟩ := h.final
  obtain ⟨hx', hy'⟩ := h'.final
  obtain ⟨hdx, hdy⟩ := passGeometry_pos q'
  exact ⟨rfl, Nat.eq_of_mul_eq_mul_right hdx (Nat.add_left_cancel (hx'.symm.trans hx)),
    Nat.eq_of_mul_eq_mul_right hdy (Nat.add_left_cancel (hy'.symm.trans hy))⟩

/-- Every raster element is reached. -/
theorem exists_localOf (h : pix < r.w.toNat * r.h.toNat) : ∃ q lx ly, LocalOf r q lx ly pix := by
  have hw : 0 < r.w.toNat := Nat.pos_of_ne_zero fun h0 => by simp [h0] at h
  have hx : pix % r.w.toNat < r.w.toNat := Nat.mod_lt _ hw
  have hy : pix / r.w.toNat < r.h.toNat := Nat.div_lt_of_lt_mul h
  have position : ∃ q ∈ imagePasses r.il, ∃ lx ly,
      pix % r.w.toNat = finalX (passGeometry q).sx (passGeometry q).dx lx ∧
      pix / r.w.toNat = finalY (passGeometry q).sy (passGeometry q).dy ly := by
    by_cases hi : r.il = 0
    · rw [hi]
      exact ⟨0, by decide, pix % r.w.toNat, pix / r.w.toNat, by simp [finalX, passGeometry], by simp [finalY, passGeometry]⟩
    · rw [imagePasses_of_interlaced hi]
      exact exists_adam7_position _ _
  obtain ⟨q, hq, lx, ly, hlx, hly⟩ := position
  refine ⟨q, lx, ly, localOf_iff.2 ⟨hq, hlx ▸ hx, hly ▸ hy, ?_⟩⟩
  rw [← hlx, ← hly, pixelIndex_mod_div]

end

end Sys2Proof.Machine
end

section
/-! SUPPORT. The statements of `41_adam7.md` on the geometry settled. -/

namespace Sys2Proof.Machine

/-- Settles O15: the eight passes against the table, the counts by their formulas. -/
theorem enterPassLoadsItsGeometry : Obligations.EnterPassLoadsItsGeometry := by
  intro s q hq t w h
  have cols : t.geo.pcols.toNat = passCols q w := GeoRegs.ofPass_pcols s.run.w.isLt
  have rows : t.geo.prows.toNat = passRows q h := GeoRegs.ofPass_prows s.run.h.isLt
  have bytes : t.geo.rb = (t.geo.pcols.toNat * s.run.pbits + 7) / 8 := by
    rw [cols]
    rfl
  exact ⟨passGeometry_table hq, cols, rows, bytes, ofNat_three_toNat hq, rfl, rfl, rfl, rfl⟩

/-- Settles O16. -/
theorem localPositionsAreThoseInsideTheImage : Obligations.LocalPositionsAreThoseInsideTheImage :=
  fun _ _ _ => ⟨lt_passCols_iff, lt_passRows_iff⟩

/-- Settles O17: both branches are the definition; the sum over the single pass of a plain image is its formula. -/
theorem expectedSizeSumsThePasses : Obligations.ExpectedSizeSumsThePasses := by
  intro w h ct bd il pb
  refine ⟨fun h0 => if_pos h0, fun h0 => (if_neg h0).trans ?_, expectedSize_eq_sum ct bd il⟩
  simp only [passBytes, passNonEmpty_iff]
  rfl

/-- Settles O19. -/
theorem firstPassIsTheLeastNonEmpty : Obligations.FirstPassIsTheLeastNonEmpty :=
  fun il _ _ _ hw hh => ⟨firstPass_eq il hw hh, firstPass_mem il hw hh, firstPass_nonEmpty il hw hh,
    fun _ hq _ => firstPass_le hw hh hq⟩

/-- Settles O20. -/
theorem passesPartitionTheRaster : Obligations.PassesPartitionTheRaster := by
  intro r
  refine ⟨fun _ _ _ _ h => h.lt, fun pix hp => ?_, fun hi _ _ _ _ h => h.tile hi⟩
  obtain ⟨q, lx, ly, h⟩ := exists_localOf hp
  exact ⟨q, lx, ly, h, fun _ _ _ h' => h.unique h'⟩

end Sys2Proof.Machine
end

section
/-! SUPPORT. What the engine does in each state of the walk (`41_adam7.md` R160 to R165), and from a sound state: WalkMove, the
moves that are left when no fault and no exhaustion can happen. -/

namespace Sys2Proof.Machine

/-! ## The engine's turn -/

theorem step_engine {s : State} (h : s.engineNext) : step s = engineStep s.beginStep := by
  rcases h with h | h <;> simp only [step, h]

section
variable {s : State}

theorem engineStep_resting (h : s.busy = false) : engineStep s = .next s := by
  cases hf : s.fsm <;> simp_all [engineStep, State.busy]

theorem engineStep_awaiting (h : s.fsm = .awaitingRow) : engineStep s = awaitingRowStep s := by
  simp only [engineStep, h]

theorem engineStep_unfiltering (h : s.fsm = .unfilteringRow) : engineStep s = unfilteringRowStep s := by
  simp only [engineStep, h]

theorem engineStep_rowComplete (h : s.fsm = .rowComplete) : engineStep s = .next s.completeRow := by
  simp only [engineStep, h]

theorem engineStep_passComplete (h : s.fsm = .passComplete) : engineStep s = .next s.completePass := by
  simp only [engineStep, h]

theorem step_resting (he : s.engineNext) (h : s.busy = false) : step s = .next s.beginStep :=
  (step_engine he).trans (engineStep_resting h)

theorem step_awaiting (he : s.engineNext) (h : s.fsm = .awaitingRow) : step s = awaitingRowStep s.beginStep :=
  (step_engine he).trans (engineStep_awaiting h)

theorem step_unfiltering (he : s.engineNext) (h : s.fsm = .unfilteringRow) : step s = unfilteringRowStep s.beginStep :=
  (step_engine he).trans (engineStep_unfiltering h)

theorem step_rowComplete (he : s.engineNext) (h : s.fsm = .rowComplete) : step s = .next s.beginStep.completeRow :=
  (step_engine he).trans (engineStep_rowComplete h)

theorem step_passComplete (he : s.engineNext) (h : s.fsm = .passComplete) : step s = .next s.beginStep.completePass :=
  (step_engine he).trans (engineStep_passComplete h)

theorem completePass_of_none (h : nextPass s.pos.pass.toNat s.run.w.toNat s.run.h.toNat = none) :
    s.completePass = s.enterDone := by
  unfold State.completePass
  rw [h]
  exact ite_self _

theorem completePass_of_next (hi : s.run.il ≠ 0) {q : Nat}
    (h : nextPass s.pos.pass.toNat s.run.w.toNat s.run.h.toNat = some q) :
    s.completePass = { s.enterPass q with fsm := .awaitingRow } := by
  unfold State.completePass
  rw [if_neg hi, h]

theorem awaitingRowStep_of_decode {ft : Byte} {i : Instr} (hx : s.exhausted = false) (hb : s.fetchByte = some ft)
    (hd : decodeSelector ft = .ok i) : awaitingRowStep s = exec i s := by
  simp [awaitingRowStep, hx, hb, hd]

theorem awaitingRowStep_of_reject {ft : Byte} {e : DecodeReject} (hx : s.exhausted = false) (hb : s.fetchByte = some ft)
    (hd : decodeSelector ft = .error e) : awaitingRowStep s = .next s.rejectSelector := by
  simp [awaitingRowStep, hx, hb, hd]

theorem unfilteringRowStep_of_decode {f m : Instr} (hx : s.exhausted = false) (hf : s.currentFilter = .ok f)
    (hm : s.currentMode = .ok m) :
    unfilteringRowStep s = andThen (andThen (exec f s) (exec m)) fun t => .next t.finishByte := by
  simp [unfilteringRowStep, hx, hf, hm]

end

/-! ## The host's turn -/

theorem hostStep_command {a : HostAction} {value : Word} {i : Instr} (ha : a.command? = some value)
    (hd : decodeCommand value = .ok i) (s : State) : hostStep a s = exec i s := by
  simp only [hostStep, ha, hd]

theorem hostStep_undefined {a : HostAction} {value : Word} {e : DecodeReject} (ha : a.command? = some value)
    (hd : decodeCommand value = .error e) (s : State) : hostStep a s = .next s.undefinedCommand := by
  simp only [hostStep, ha, hd]

/-! ## Selectors -/

section
variable {s : State} (ftype : BitVec 3) (reverse : Byte → Byte → Byte → Byte → Byte)

theorem runFilter_of_awaiting (h : s.fsm = .awaitingRow) : runFilter ftype reverse s = .next (s.takeSelector ftype) := by
  simp only [runFilter, h]

theorem runFilter_of_unfiltering (h : s.fsm = .unfilteringRow) : runFilter ftype reverse s = reconstructByte reverse s := by
  simp only [runFilter, h]

theorem runFilter_of_other (ha : s.fsm ≠ .awaitingRow) (hu : s.fsm ≠ .unfilteringRow) : runFilter ftype reverse s = .next s := by
  cases hf : s.fsm <;> simp_all [runFilter]

end

/-- A legal selector fits the three bits of FTYPE. -/
theorem selector_setWidth {ft : Byte} (h : ft.toNat ≤ 4) : (ft.setWidth 3).setWidth 8 = ft := by
  apply BitVec.eq_of_toNat_eq
  simp only [BitVec.toNat_setWidth]
  omega

/-- R162 for a legal selector. -/
theorem awaitingRowStep_of_legal {s : State} (hf : s.fsm = .awaitingRow) (hx : s.exhausted = false)
    (hi : s.pos.inPtr.toNat < s.caps.inBytes) (h : (s.inByte s.pos.inPtr.toNat).toNat ≤ 4) :
    awaitingRowStep s = .next (s.takeSelector ((s.inByte s.pos.inPtr.toNat).setWidth 3)) := by
  obtain ⟨i, hd⟩ := decodeSelector_ok h
  rw [awaitingRowStep_of_decode hx (fetchByte_of_lt hi) hd, exec_of_decodeSelector ((selector_setWidth h).symm ▸ hd)]
  exact runFilter_of_awaiting _ _ hf

theorem encode_filter_le_four {i : Instr} (h : i.format = .filter) : (encode i).bits.toNat ≤ 4 := by
  refine encode_of_opcodeRows (P := fun bits => bits.toNat ≤ 4) ?_
  rw [h]
  decide

theorem decodeSelector_illegal {ft : Byte} (h : 4 < ft.toNat) : decodeSelector ft = .error .illegalSelector := by
  have fits : (ft.setWidth 32 : Word).toNat = ft.toNat := by
    rw [BitVec.toNat_setWidth]
    exact Nat.mod_eq_of_lt (by omega)
  refine decode_eq_reject (decide_eq_true (fits ▸ ft.isLt)) fun i hi => ?_
  obtain ⟨-, hf, hb⟩ := decode_eq_ok_iff.1 hi
  have hfilter : i.format = .filter := hf.symm
  have low : ((ft.setWidth 32 : Word) &&& 0xFF).toNat = ft.toNat := by
    rw [BitVec.toNat_and, fits]
    exact (Nat.and_two_pow_sub_one_eq_mod _ 8).trans (Nat.mod_eq_of_lt ft.isLt)
  have := encode_filter_le_four hfilter
  rw [← hb, hfilter] at this
  exact absurd (low ▸ this) (by omega)

/-- R162 for an illegal selector. -/
theorem awaitingRowStep_of_illegal {s : State} (hx : s.exhausted = false) (hi : s.pos.inPtr.toNat < s.caps.inBytes)
    (h : 4 < (s.inByte s.pos.inPtr.toNat).toNat) : awaitingRowStep s = .next s.rejectSelector :=
  awaitingRowStep_of_reject hx (fetchByte_of_lt hi) (decodeSelector_illegal h)

/-! ## The mode of a format -/

/-- The pixel rule of a format (`43_color_demux.md` R218 to R233). -/
def pixelRule (ct bd : Byte) : PixelRule :=
  if ct = 3 then indexedPixel
  else if ct = 0 then if bd.toNat < 8 then scaledGrey bd.toNat else wholeGrey
  else wholeChannel

/-- The mode instruction of a legal format assembles by its pixel rule. -/
theorem decodeMode_pixelRule {ct bd : Byte} (h : legalFormat ct bd = true) :
    ∃ m, decodeMode ct bd = .ok m ∧ ∀ s, exec m s = runMode (pixelRule ct bd) s := by
  have hm := mem_legalFormats h
  simp only [legalFormats, List.mem_cons, Prod.mk.injEq, List.not_mem_nil, or_false] at hm
  rcases hm with ⟨rfl, rfl⟩ | ⟨rfl, rfl⟩ | ⟨rfl, rfl⟩ | ⟨rfl, rfl⟩ | ⟨rfl, rfl⟩ | ⟨rfl, rfl⟩ | ⟨rfl, rfl⟩ | ⟨rfl, rfl⟩ |
    ⟨rfl, rfl⟩ | ⟨rfl, rfl⟩ | ⟨rfl, rfl⟩ | ⟨rfl, rfl⟩ | ⟨rfl, rfl⟩ | ⟨rfl, rfl⟩ | ⟨rfl, rfl⟩ <;>
    exact ⟨_, rfl, fun _ => rfl⟩

/-- Only an indexed format has a rule that can fail (`43_color_demux.md` R215). -/
theorem pixelRule_isSome {ct : Byte} (h : ct ≠ 3) (bd : Byte) (s : State) (x : Sample) :
    (pixelRule ct bd s x).isSome = true := by
  unfold pixelRule
  rw [if_neg h]
  split_ifs <;> rfl

theorem assemble_eq_some {rule : Sample → Option (List (Fin 4 × Half))} {xs : List Sample}
    (h : ∀ x ∈ xs, (rule x).isSome = true) (out : List (Nat × Half)) : ∃ out', assemble rule xs out = some out' := by
  induction xs generalizing out with
  | nil => exact ⟨out, rfl⟩
  | cons x xs ih =>
    obtain ⟨ws, hws⟩ := Option.isSome_iff_exists.1 (h x (by simp))
    obtain ⟨out', ho⟩ := ih (fun y hy => h y (by simp [hy])) (outWrites out x.pix ws)
    exact ⟨out', by rw [assemble, hws]; exact ho⟩

/-! ## A data byte -/

/-- The state with CUR[LBYTE] reconstructed (R120). -/
def State.withByte (s : State) : State :=
  let i := s.pos.lbyte.toNat
  { s with
    cur := cellSet s.cur i (recon s.pos.ftype (s.inByte s.pos.inPtr.toNat) (s.leftRef i) (s.upRef i) (s.upLeftRef i)) }

/-- The samples that byte completes. -/
def State.byteSamples (s : State) : List Sample :=
  s.withByte.emitted s.pos.lbyte.toNat

/-- The state between the two instructions of a data byte (log entry 7). -/
def State.handingOn (s : State) : State :=
  { s.withByte with samples := s.byteSamples }

/-- OUT after the samples of the byte; none when one of them names no palette entry. -/
def State.outAfterByte (s : State) : Option (List (Nat × Half)) :=
  assemble (pixelRule s.run.ct s.run.bd s.handingOn) s.byteSamples s.out

/-- The state after a data byte that raised nothing (R163). -/
def State.afterByte (s : State) (out : List (Nat × Half)) : State :=
  { s.withByte with
    fsm := if s.pos.lbyte.toNat + 1 = s.geo.rb then .rowComplete else .unfilteringRow
    pos := { s.pos with inPtr := s.pos.inPtr + 1, lbyte := s.pos.lbyte + 1 }
    out := out
    samples := [] }

/-- A palette error arises in an indexed image alone. -/
theorem indexed_of_outAfterByte {s : State} (h : s.outAfterByte = none) : s.run.ct = 3 := by
  by_contra hct
  obtain ⟨out, ho⟩ := assemble_eq_some (xs := s.byteSamples) (fun x _ => pixelRule_isSome hct s.run.bd s.handingOn x) s.out
  cases h.symm.trans ho

/-- R163 where its reads and writes lie inside the memories: the byte's filter, its mode and the advance, or the palette error. -/
theorem unfilteringRowStep_of_fit {s : State} (hf : s.fsm = .unfilteringRow) (hx : s.exhausted = false)
    (hft : s.pos.ftype.toNat ≤ 4) (hl : legalFormat s.run.ct s.run.bd = true) (hi : s.pos.inPtr.toNat < s.caps.inBytes)
    (hr : s.pos.lbyte.toNat < s.caps.rowBytes) (hp : s.pixelCount ≤ s.caps.pixels) :
    unfilteringRowStep s = .next (s.outAfterByte.elim (s.raise .paletteIndexError) s.afterByte) := by
  have hsel : (s.pos.ftype.setWidth 8).toNat ≤ 4 := by
    rw [BitVec.toNat_setWidth]
    omega
  obtain ⟨f, hdf⟩ := decodeSelector_ok hsel
  obtain ⟨m, hdm, hmode⟩ := decodeMode_pixelRule hl
  have filter : exec f s = .next s.handingOn := by
    rw [exec_of_decodeSelector hdf, runFilter_of_unfiltering _ _ hf, reconstructByte_of_lt _ hi hr]
    rfl
  have fit : ∀ x ∈ s.handingOn.samples, x.pix < s.handingOn.caps.pixels :=
    fun x hx => Nat.lt_of_lt_of_le (emitted_pix_lt hx) hp
  rw [unfilteringRowStep_of_decode hx hdf hdm, filter, andThen_next, hmode, runMode_of_fit _ fit]
  change andThen (match s.outAfterByte with | some out => _ | none => _) _ = _
  cases s.outAfterByte with
  | none =>
    rw [andThen_next, finishByte_of_error rfl]
    rfl
  | some out =>
    rw [andThen_next, finishByte_of_unfiltering (s := { s.handingOn with out := out, samples := [] }) hf]
    rfl

/-! ## The moves of a sound state -/

/-- What an engine step of a sound state can be. -/
inductive WalkMove (s : State) : State → Prop where
  /-- Idle, Done or Error: nothing. -/
  | rest (h : s.busy = false) : WalkMove s s
  /-- A legal selector (R162). -/
  | selector (h : s.fsm = .awaitingRow) (ftype : BitVec 3) (hf : ftype.toNat ≤ 4) : WalkMove s (s.takeSelector ftype)
  /-- An illegal selector (R162). -/
  | badSelector (h : s.fsm = .awaitingRow) : WalkMove s s.rejectSelector
  /-- A data byte (R163). -/
  | dataByte (h : s.fsm = .unfilteringRow) (out : List (Nat × Half)) (ho : s.outAfterByte = some out) :
      WalkMove s (s.afterByte out)
  /-- A data byte with a sample that names no palette entry (`43_color_demux.md` R215). -/
  | badIndex (h : s.fsm = .unfilteringRow) (ho : s.outAfterByte = none) : WalkMove s (s.raise .paletteIndexError)
  /-- RowComplete (R164). -/
  | row (h : s.fsm = .rowComplete) : WalkMove s s.completeRow
  /-- PassComplete with a pass to come (R165). -/
  | nextPass (h : s.fsm = .passComplete) (hi : s.run.il ≠ 0) (q : Nat)
      (hq : nextPass s.pos.pass.toNat s.run.w.toNat s.run.h.toNat = some q) :
      WalkMove s { s.enterPass q with fsm := .awaitingRow }
  /-- PassComplete with none (R165). -/
  | lastPass (h : s.fsm = .passComplete)
      (hn : s.run.il = 0 ∨ nextPass s.pos.pass.toNat s.run.w.toNat s.run.h.toNat = none) : WalkMove s s.enterDone

theorem busy_of_unfiltering {s : State} (h : s.fsm = .unfilteringRow) : s.busy = true := by
  simp [State.busy, h]

theorem busy_of_awaiting {s : State} (h : s.fsm = .awaitingRow) : s.busy = true := by
  simp [State.busy, h]

theorem busy_of_rowComplete {s : State} (h : s.fsm = .rowComplete) : s.busy = true := by
  simp [State.busy, h]

theorem busy_of_passComplete {s : State} (h : s.fsm = .passComplete) : s.busy = true := by
  simp [State.busy, h]

/-- The engine goes on from every sound state, by one of these moves. -/
theorem State.Sound.engine_goes_on {s : State} (hs : s.Sound) : ∃ t, engineStep s = .next t ∧ WalkMove s t := by
  by_cases hb : s.busy = true
  case neg =>
    have hb : s.busy = false := by simpa using hb
    exact ⟨s, engineStep_resting hb, .rest hb⟩
  have hd := hs.decoding hb
  cases hf : s.fsm with
  | idle | done | error => simp [State.busy, hf] at hb
  | awaitingRow =>
    have hx := hs.not_exhausted (.inl hf)
    have hi := hd.inPtr_lt hx
    rw [engineStep_awaiting hf]
    rcases Nat.lt_or_ge 4 (s.inByte s.pos.inPtr.toNat).toNat with h | h
    · exact ⟨_, awaitingRowStep_of_illegal hx hi h, .badSelector hf⟩
    · refine ⟨_, awaitingRowStep_of_legal hf hx hi h, .selector hf _ ?_⟩
      rw [BitVec.toNat_setWidth]
      omega
  | unfilteringRow =>
    have hx := hs.not_exhausted (.inr hf)
    have hr := Nat.lt_of_lt_of_le (hd.byte hf) hd.rb_le
    refine ⟨_, (engineStep_unfiltering hf).trans
      (unfilteringRowStep_of_fit hf hx hs.filterType hd.legal (hd.inPtr_lt hx) hr hd.pixelCount_le), ?_⟩
    cases ho : s.outAfterByte with
    | none => exact .badIndex hf ho
    | some out => exact .dataByte hf out ho
  | rowComplete => exact ⟨_, engineStep_rowComplete hf, .row hf⟩
  | passComplete =>
    refine ⟨_, engineStep_passComplete hf, ?_⟩
    rcases completePass_cases s with ⟨hi, he⟩ | ⟨-, hn, he⟩ | ⟨hi, q, hq, he⟩ <;> rw [he]
    · exact .lastPass hf (.inl hi)
    · exact .lastPass hf (.inr hn)
    · exact .nextPass hf hi q hq

/-- What a step of a sound state that is the engine's can be. -/
theorem State.Sound.walkMove {s t : State} (hs : s.Sound) (he : s.engineNext) (h : step s = .next t) :
    WalkMove s.beginStep t := by
  obtain ⟨u, hu, hm⟩ := hs.beginStep.engine_goes_on
  rw [step_engine he, hu] at h
  cases h
  exact hm

end Sys2Proof.Machine
end

section
/-! SUPPORT. A decode in progress: what it has still to read in each state, and that every move of the walk keeps
State.Decoding. -/

namespace Sys2Proof.Machine

/-! ## Words that count -/

theorem toNat_add_one {x : Word} (h : x.toNat + 1 < 2 ^ 32) : (x + 1).toNat = x.toNat + 1 := by
  rw [BitVec.toNat_add]
  exact Nat.mod_eq_of_lt h

/-! ## A decode in progress -/

section
variable {s : State}

theorem nonempty_of_latched (accepted : s.cfg.startError s.caps = none) (latched : s.run = s.cfg.latched) :
    0 < s.run.w.toNat ∧ 0 < s.run.h.toNat := by
  have ha := CfgRegs.accepted_of accepted
  rw [latched]
  exact ⟨Nat.pos_of_ne_zero ha.width, Nat.pos_of_ne_zero ha.height⟩

/-- The input of an accepted configuration is the sum over the passes of the latched image. -/
theorem inLen_of_latched (accepted : s.cfg.startError s.caps = none) (latched : s.run = s.cfg.latched) :
    s.cfg.inLen.toNat = ((imagePasses s.run.il).map (passBytes · s.run.w.toNat s.run.h.toNat s.run.pbits)).sum := by
  obtain ⟨hw, hh⟩ := nonempty_of_latched accepted latched
  rw [(CfgRegs.accepted_of accepted).input]
  rw [latched] at hw hh ⊢
  exact expectedSize_eq_sum _ _ _ hw hh

theorem State.Decoding.prows_eq (hd : s.Decoding) : s.geo.prows.toNat = passRows s.pos.pass.toNat s.run.h.toNat := by
  rw [hd.geometry]
  exact GeoRegs.ofPass_prows s.run.h.isLt

theorem State.Decoding.rb_eq (hd : s.Decoding) : s.geo.rb = rowBytes s.pos.pass.toNat s.run.w.toNat s.run.pbits := by
  rw [hd.geometry]
  rfl

/-- The input counts every row of the pass, so a row has fewer than 2 ^ 32 bytes. -/
theorem State.Decoding.rb_lt (hd : s.Decoding) : s.geo.rb < 2 ^ 32 := by
  have size := s.cfg.inLen.isLt
  rw [inLen_of_latched hd.accepted hd.latched] at size
  have one : passBytes s.pos.pass.toNat s.run.w.toNat s.run.h.toNat s.run.pbits ≤ _ :=
    List.le_sum_of_mem (List.mem_map_of_mem (f := (passBytes · s.run.w.toNat s.run.h.toNat s.run.pbits)) hd.inImage)
  rw [passBytes_of_nonEmpty _ hd.nonEmpty, ← hd.rb_eq] at one
  have row := Nat.mul_le_mul_right (1 + s.geo.rb) (passNonEmpty_iff.1 hd.nonEmpty).2
  omega

/-- While something is left to read, IN_PTR does not wrap. -/
theorem State.Decoding.inPtr_add_one (hd : s.Decoding) (h : 0 < s.bytesLeft) :
    (s.pos.inPtr + 1).toNat = s.pos.inPtr.toNat + 1 := by
  have hi := hd.input
  have := s.cfg.inLen.isLt
  exact toNat_add_one (by omega)

theorem State.Decoding.lrow_add_one (hd : s.Decoding) (hf : s.fsm ≠ .passComplete) :
    (s.pos.lrow + 1).toNat = s.pos.lrow.toNat + 1 := by
  have hr := hd.row hf
  have := s.geo.prows.isLt
  exact toNat_add_one (by omega)

theorem State.Decoding.lbyte_add_one (hd : s.Decoding) (hf : s.fsm = .unfilteringRow) :
    (s.pos.lbyte + 1).toNat = s.pos.lbyte.toNat + 1 := by
  have hb := hd.byte hf
  have := hd.rb_lt
  exact toNat_add_one (by omega)

/-! ## The bytes left, by state -/

theorem bytesLeft_awaiting (h : s.fsm = .awaitingRow) :
    s.bytesLeft = (s.rowsToCome + 1) * (1 + s.geo.rb) + s.bytesToCome := by
  simp only [State.bytesLeft, h]

theorem bytesLeft_unfiltering (h : s.fsm = .unfilteringRow) :
    s.bytesLeft = (s.geo.rb - s.pos.lbyte.toNat) + s.rowsToCome * (1 + s.geo.rb) + s.bytesToCome := by
  simp only [State.bytesLeft, h]

theorem bytesLeft_rowComplete (h : s.fsm = .rowComplete) :
    s.bytesLeft = s.rowsToCome * (1 + s.geo.rb) + s.bytesToCome := by
  simp only [State.bytesLeft, h]

theorem bytesLeft_passComplete (h : s.fsm = .passComplete) : s.bytesLeft = s.bytesToCome := by
  simp only [State.bytesLeft, h]

/-- Before a selector and before a data byte something is left to read. -/
theorem State.Decoding.bytesLeft_pos (hd : s.Decoding) (hf : s.fsm = .awaitingRow ∨ s.fsm = .unfilteringRow) :
    0 < s.bytesLeft := by
  rcases hf with hf | hf
  · have rows : 0 < (s.rowsToCome + 1) * (1 + s.geo.rb) := Nat.mul_pos (by omega) (by omega)
    rw [bytesLeft_awaiting hf]
    omega
  · have hb := hd.byte hf
    rw [bytesLeft_unfiltering hf]
    omega

/-- The IN bytes of the passes of the image after pass `q`. -/
def RunRegs.bytesAfter (r : RunRegs) (q : Nat) : Nat :=
  (((imagePasses r.il).filter (q < ·)).map (passBytes · r.w.toNat r.h.toNat r.pbits)).sum

theorem bytesToCome_eq (s : State) : s.bytesToCome = s.run.bytesAfter s.pos.pass.toNat := rfl

theorem bytesLeft_at_first_row (h : s.fsm = .awaitingRow) (hr : s.pos.lrow = 0) (hp : 0 < s.geo.prows.toNat) :
    s.bytesLeft = s.geo.prows.toNat * (1 + s.geo.rb) + s.run.bytesAfter s.pos.pass.toNat := by
  have rows : s.rowsToCome + 1 = s.geo.prows.toNat := by
    rw [State.rowsToCome, hr]
    exact Nat.sub_add_cancel hp
  rw [bytesLeft_awaiting h, rows, bytesToCome_eq]

/-- The bytes of the later passes are those of the next one and of the passes after it. -/
theorem bytesToCome_of_next (hi : s.run.il ≠ 0) {q : Nat}
    (hq : nextPass s.pos.pass.toNat s.run.w.toNat s.run.h.toNat = some q) :
    s.bytesToCome = passBytes q s.run.w.toNat s.run.h.toNat s.run.pbits + s.run.bytesAfter q := by
  obtain ⟨hp, -, -, -⟩ := nextPass_eq_some_iff.1 hq
  rw [bytesToCome_eq, RunRegs.bytesAfter, RunRegs.bytesAfter, filter_gt_image hi, filter_gt_image hi, ← laterPasses_filter hp]
  exact sum_find (laterPasses_pairwise _) (fun _ => passBytes_empty _) hq

theorem bytesToCome_of_last
    (hn : s.run.il = 0 ∨ nextPass s.pos.pass.toNat s.run.w.toNat s.run.h.toNat = none) : s.bytesToCome = 0 := by
  rw [bytesToCome_eq, RunRegs.bytesAfter]
  by_cases hi : s.run.il = 0
  · rw [hi, imagePasses_of_plain, List.filter_cons_of_neg (by simp)]
    rfl
  · rw [filter_gt_image hi]
    exact sum_none (P := (passNonEmpty · s.run.w.toNat s.run.h.toNat)) (fun _ => passBytes_empty _) (hn.resolve_left hi)

end

/-! ## Decoding is kept -/

section
variable {s : State}

theorem State.Decoding.takeSelector (hd : s.Decoding) (hf : s.fsm = .awaitingRow) (ftype : BitVec 3) :
    (s.takeSelector ftype).Decoding := by
  refine ⟨hd.accepted, hd.latched, hd.inImage, hd.nonEmpty, hd.geometry, fun _ => hd.row (by simp [hf]), fun _ => hd.rb_pos, ?_⟩
  have hi := hd.input
  have left := bytesLeft_awaiting hf
  rw [Nat.succ_mul] at left
  have ptr := hd.inPtr_add_one (hd.bytesLeft_pos (.inl hf))
  rw [bytesLeft_unfiltering rfl]
  change (s.pos.inPtr + 1).toNat + ((s.geo.rb - 0) + s.rowsToCome * (1 + s.geo.rb) + s.bytesToCome) = s.cfg.inLen.toNat
  omega

theorem State.Decoding.afterByte (hd : s.Decoding) (hf : s.fsm = .unfilteringRow) (out : List (Nat × Half)) :
    (s.afterByte out).Decoding := by
  have hb := hd.byte hf
  have hi := hd.input
  have left := bytesLeft_unfiltering hf
  have ptr := hd.inPtr_add_one (hd.bytesLeft_pos (.inr hf))
  have lbyte := hd.lbyte_add_one hf
  refine ⟨hd.accepted, hd.latched, hd.inImage, hd.nonEmpty, hd.geometry, fun _ => hd.row (by simp [hf]), fun hu => ?_, ?_⟩
  · change (s.pos.lbyte + 1).toNat < s.geo.rb
    have more : s.pos.lbyte.toNat + 1 ≠ s.geo.rb := fun he => by simp [State.afterByte, he] at hu
    omega
  · change (s.pos.inPtr + 1).toNat + (s.afterByte out).bytesLeft = s.cfg.inLen.toNat
    by_cases he : s.pos.lbyte.toNat + 1 = s.geo.rb
    · rw [bytesLeft_rowComplete (if_pos he)]
      change _ + (s.rowsToCome * (1 + s.geo.rb) + s.bytesToCome) = _
      omega
    · rw [bytesLeft_unfiltering (if_neg he)]
      change _ + (s.geo.rb - (s.pos.lbyte + 1).toNat + s.rowsToCome * (1 + s.geo.rb) + s.bytesToCome) = _
      omega

theorem State.Decoding.completeRow (hd : s.Decoding) (hf : s.fsm = .rowComplete) : s.completeRow.Decoding := by
  have hi := hd.input
  have left := bytesLeft_rowComplete hf
  have lrow := hd.lrow_add_one (by simp [hf])
  have come : s.completeRow.rowsToCome = s.rowsToCome - 1 := by
    change s.geo.prows.toNat - ((s.pos.lrow + 1).toNat + 1) = _
    unfold State.rowsToCome
    omega
  by_cases more : s.pos.lrow.toNat + 1 < s.geo.prows.toNat
  · have hf' : s.completeRow.fsm = .awaitingRow := if_pos more
    refine ⟨hd.accepted, hd.latched, hd.inImage, hd.nonEmpty, hd.geometry, fun _ => ?_, fun hu => (nomatch hf'.symm.trans hu), ?_⟩
    · change (s.pos.lrow + 1).toNat < s.geo.prows.toNat
      omega
    · have again : s.rowsToCome - 1 + 1 = s.rowsToCome := by
        unfold State.rowsToCome
        omega
      rw [bytesLeft_awaiting hf', come, again]
      exact left ▸ hi
  · have hf' : s.completeRow.fsm = .passComplete := if_neg more
    refine ⟨hd.accepted, hd.latched, hd.inImage, hd.nonEmpty, hd.geometry, fun hp => absurd hf' hp,
      fun hu => (nomatch hf'.symm.trans hu), ?_⟩
    have none_left : s.rowsToCome = 0 := by
      unfold State.rowsToCome
      omega
    rw [bytesLeft_passComplete hf']
    rwa [left, none_left, Nat.zero_mul, Nat.zero_add] at hi

/-- A pass entered with its bytes, and those of the passes after it, unread (R161). -/
theorem decoding_enterPass {q : Nat} (accepted : s.cfg.startError s.caps = none) (latched : s.run = s.cfg.latched)
    (hq : q ∈ imagePasses s.run.il) (hn : passNonEmpty q s.run.w.toNat s.run.h.toNat = true)
    (input : s.pos.inPtr.toNat + (passBytes q s.run.w.toNat s.run.h.toNat s.run.pbits + s.run.bytesAfter q) =
      s.cfg.inLen.toNat) :
    ({ s.enterPass q with fsm := .awaitingRow } : State).Decoding := by
  have pass : (BitVec.ofNat 3 q).toNat = q := ofNat_three_toNat (imagePasses_le hq)
  have rows : (GeoRegs.ofPass q s.run.w.toNat s.run.h.toNat s.run.pbits).prows.toNat = passRows q s.run.h.toNat :=
    GeoRegs.ofPass_prows s.run.h.isLt
  have some_row := rows ▸ (passNonEmpty_iff.1 hn).2
  refine ⟨accepted, latched, ?_, ?_, ?_, fun _ => some_row, nofun, ?_⟩
  · exact pass.symm ▸ hq
  · exact pass.symm ▸ hn
  · exact pass.symm ▸ rfl
  · rw [bytesLeft_at_first_row rfl rfl some_row]
    change _ + (BitVec.toNat (GeoRegs.ofPass q _ _ _).prows * (1 + rowBytes q _ _) +
      s.run.bytesAfter (BitVec.ofNat 3 q).toNat) = _
    rw [rows, pass, ← passBytes_of_nonEmpty _ hn]
    exact input

theorem State.Decoding.enterNextPass (hd : s.Decoding) (hf : s.fsm = .passComplete) (hi : s.run.il ≠ 0) {q : Nat}
    (hq : nextPass s.pos.pass.toNat s.run.w.toNat s.run.h.toNat = some q) :
    ({ s.enterPass q with fsm := .awaitingRow } : State).Decoding := by
  obtain ⟨hp, h7, hn, -⟩ := nextPass_eq_some_iff.1 hq
  refine decoding_enterPass hd.accepted hd.latched ?_ hn ?_
  · rw [imagePasses_of_interlaced hi]
    exact mem_laterPasses.2 ⟨by omega, by omega, h7⟩
  · rw [← bytesToCome_of_next hi hq, ← bytesLeft_passComplete hf]
    exact hd.input

/-- BeginWalk of an accepted configuration (R255). -/
theorem decoding_beginWalk (accepted : s.cfg.startError s.caps = none) (latched : s.run = s.cfg.latched) :
    s.beginWalk.Decoding := by
  obtain ⟨hw, hh⟩ := nonempty_of_latched accepted latched
  refine decoding_enterPass (s := { s with pos := { s.pos with inPtr := 0 } }) accepted latched
    (firstPass_mem _ hw hh) (firstPass_nonEmpty _ hw hh) ?_
  refine (Nat.zero_add _).trans (.trans ?_ (inLen_of_latched accepted latched).symm)
  exact (sum_find (imagePasses_pairwise s.run.il) (fun _ => passBytes_empty s.run.pbits) (find?_firstPass s.run.il hw hh)).symm

end

end Sys2Proof.Machine
end

section
/-! SUPPORT. Every step keeps the invariant State.Sound: an engine step, an access, a command and reset. -/

namespace Sys2Proof.Machine

/-! ## The clauses of the invariant -/

/-- An Idle state as R48 leaves it, by field. -/
theorem dropPreviousResult_eq_self_iff {s : State} : s.dropPreviousResult = s ↔
    s.errCode = 0 ∧ s.busyWr = false ∧ s.convValid = false ∧ s.convFmt = false ∧ s.run = RunRegs.zero ∧
      s.geo = GeoRegs.zero ∧ s.pos = Position.zero ∧ s.out = [] ∧ s.conv = [] := by
  constructor
  · intro h
    rw [← h]
    simp
  · rintro ⟨h1, h2, h3, h4, h5, h6, h7, h8, h9⟩
    cases s
    simp_all [State.dropPreviousResult]

theorem busy_eq_false_of_done {s : State} (h : s.fsm = .done) : s.busy = false := by
  simp [State.busy, h]

theorem ne_of_busy {s : State} (h : s.busy = true) : s.fsm ≠ .idle ∧ s.fsm ≠ .done ∧ s.fsm ≠ .error := by
  refine ⟨fun hf => ?_, fun hf => ?_, fun hf => ?_⟩ <;> simp [State.busy, hf] at h

/-- The adapter of its bit depth takes the kind of a legal format (`44_commands.md` §5). -/
theorem adaptable_latched {c : CfgRegs} (h : legalFormat c.colorType c.bitDepth = true) : c.latched.adaptable := by
  have all := forall_legalFormat (test := fun ct bd => decide (∀ trns : Bool,
    if bd.toNat ≤ 8 then (adapter8 (selectKind ct bd trns)).isSome = true
    else (adapter16 (selectKind ct bd trns)).isSome = true)) (by decide) h
  exact of_decide_eq_true all c.trnsValid

/-- CMD_RESULT and the model's own fields are no part of the invariant, nor is BUSYWR outside Idle. -/
theorem State.Sound.congr {s t : State} (hs : s.Sound) (hi : s.fsm = .idle → t.busyWr = s.busyWr)
    (ht : t = { s with cmdResult := t.cmdResult, busyWr := t.busyWr, agenda := t.agenda, lastRead := t.lastRead,
                       tick := t.tick }) : t.Sound := by
  rw [ht]
  refine ⟨hs.capacity, hs.memory, hs.handedOn, hs.filterType, hs.noError, hs.someError, hs.convFormat, hs.convOfDone,
    hs.converted, fun hf => ?_, fun hb => ?_, hs.finished⟩
  · obtain ⟨h1, h2, h3⟩ := dropPreviousResult_eq_self_iff.1 (hs.idle hf)
    exact dropPreviousResult_eq_self_iff.2 ⟨h1, (hi hf).trans h2, h3⟩
  · obtain ⟨h1, h2, h3, h4, h5, h6, h7, h8⟩ := hs.decoding hb
    exact ⟨h1, h2, h3, h4, h5, h6, h7, h8⟩

theorem cellsWf_nil {α : Type} (size : Nat) : cellsWf size ([] : List (Nat × α)) :=
  ⟨.nil, nofun⟩

/-- Error entry gives a sound state, out of any that keeps its memories, its capacity and a legal FTYPE. -/
theorem sound_raise {s : State} (capacity : 2 ≤ s.caps.inBytes ∧ 1 ≤ s.caps.pixels ∧ 1 ≤ s.caps.rowBytes)
    (memory : Memory.wf s) (filterType : s.pos.ftype.toNat ≤ 4) (e : DecodeError) : (s.raise e).Sound where
  capacity := capacity
  memory := by
    obtain ⟨hin, hplte, htrns, -⟩ := memory
    exact ⟨hin, hplte, htrns, cellsWf_nil _, cellsWf_nil _, cellsWf_nil _, cellsWf_nil _⟩
  handedOn := rfl
  filterType := filterType
  noError h := absurd rfl h
  someError _ := e.code_mem_raisedCodes
  convFormat := nofun
  convOfDone := nofun
  converted := nofun
  idle := nofun
  decoding := nofun
  finished := nofun

/-! ## The engine -/

/-- What a step inside BUSY that raises nothing leaves as it is, and the form it keeps. -/
structure WalksOn (s t : State) : Prop where
  caps : t.caps = s.caps
  errCode : t.errCode = s.errCode
  convValid : t.convValid = s.convValid
  convFmt : t.convFmt = s.convFmt
  memory : Memory.wf t
  handedOn : t.samples = []
  filterType : t.pos.ftype.toNat ≤ 4

section
variable {s t : State}

/-- A decode that goes on stays sound. -/
theorem WalksOn.sound_of_decoding (hw : WalksOn s t) (hs : s.Sound) (hb : s.busy = true) (hbt : t.busy = true)
    (hd : t.Decoding) : t.Sound := by
  obtain ⟨-, -, hne⟩ := ne_of_busy hb
  obtain ⟨hidle, hdone, herror⟩ := ne_of_busy hbt
  obtain ⟨hv, hf⟩ := hs.no_conversion_of_busy hb
  have valid : t.convValid = false := hw.convValid.trans hv
  exact {
    capacity := hw.caps ▸ hs.capacity
    memory := hw.memory
    handedOn := hw.handedOn
    filterType := hw.filterType
    noError := fun _ => hw.errCode.trans (hs.noError hne)
    someError := fun h => absurd h herror
    convFormat := fun h => by simp [hw.convFmt, hf] at h
    convOfDone := fun h => by simp [valid] at h
    converted := fun h => by simp [valid] at h
    idle := fun h => absurd h hidle
    decoding := fun _ => hd
    finished := fun h => absurd h hdone }

theorem outAfterByte_wf (hs : s.Sound) (hf : s.fsm = .unfilteringRow) {out : List (Nat × Half)}
    (ho : s.outAfterByte = some out) : cellsWf (4 * s.caps.pixels) out := by
  obtain ⟨-, -, -, -, -, hout, -⟩ := hs.memory
  have hp := (hs.decoding (busy_of_unfiltering hf)).pixelCount_le
  exact assemble_wf ho (fun x hx => Nat.lt_of_lt_of_le (emitted_pix_lt hx) hp) hout

theorem State.Sound.walksOn_afterByte (hs : s.Sound) (hf : s.fsm = .unfilteringRow) {out : List (Nat × Half)}
    (ho : s.outAfterByte = some out) : WalksOn s (s.afterByte out) := by
  obtain ⟨hin, hplte, htrns, hcur, hprior, -, hconv⟩ := hs.memory
  have hd := hs.decoding (busy_of_unfiltering hf)
  have hr := Nat.lt_of_lt_of_le (hd.byte hf) hd.rb_le
  exact ⟨rfl, rfl, rfl, rfl, ⟨hin, hplte, htrns, cellSet_wf _ hr hcur, hprior, outAfterByte_wf hs hf ho, hconv⟩, rfl,
    hs.filterType⟩

theorem State.Sound.walksOn_completeRow (hs : s.Sound) : WalksOn s s.completeRow := by
  obtain ⟨hin, hplte, htrns, hcur, hprior, hout, hconv⟩ := hs.memory
  exact ⟨rfl, rfl, rfl, rfl, ⟨hin, hplte, htrns, hcur, cellsCopyBelow_wf hcur hprior, hout, hconv⟩, hs.handedOn, hs.filterType⟩

theorem busy_afterByte (s : State) (out : List (Nat × Half)) : (s.afterByte out).busy = true := by
  unfold State.busy State.afterByte
  split_ifs <;> rfl

theorem busy_completeRow (s : State) : s.completeRow.busy = true := by
  unfold State.busy State.completeRow
  split_ifs <;> rfl

theorem State.Sound.enterDone (hs : s.Sound) (hf : s.fsm = .passComplete) : s.enterDone.Sound := by
  have hb := busy_of_passComplete hf
  have hd := hs.decoding hb
  obtain ⟨hv, hw⟩ := hs.no_conversion_of_busy hb
  exact {
    capacity := hs.capacity
    memory := hs.memory
    handedOn := hs.handedOn
    filterType := hs.filterType
    noError := fun _ => hs.noError (by simp [hf])
    someError := nofun
    convFormat := hs.convFormat
    convOfDone := fun _ => rfl
    converted := fun h => by simp [hv] at h
    idle := nofun
    decoding := nofun
    finished := fun _ => ⟨hd.pixelCount_le, by
      rw [State.enterDone_run, hd.latched]
      exact adaptable_latched (CfgRegs.accepted_of hd.accepted).format⟩ }

theorem WalkMove.sound (hm : WalkMove s t) (hs : s.Sound) : t.Sound := by
  cases hm with
  | rest => exact hs
  | selector hf ftype hft =>
    have hb := busy_of_awaiting hf
    have walks : WalksOn s (s.takeSelector ftype) := ⟨rfl, rfl, rfl, rfl, hs.memory, hs.handedOn, hft⟩
    exact walks.sound_of_decoding hs hb rfl ((hs.decoding hb).takeSelector hf ftype)
  | badSelector => exact sound_raise hs.capacity hs.memory hs.filterType _
  | dataByte hf out ho =>
    have hb := busy_of_unfiltering hf
    exact (hs.walksOn_afterByte hf ho).sound_of_decoding hs hb (busy_afterByte s out) ((hs.decoding hb).afterByte hf out)
  | badIndex => exact sound_raise hs.capacity hs.memory hs.filterType _
  | row hf =>
    have hb := busy_of_rowComplete hf
    exact hs.walksOn_completeRow.sound_of_decoding hs hb (busy_completeRow s) ((hs.decoding hb).completeRow hf)
  | nextPass hf hi q hq =>
    have hb := busy_of_passComplete hf
    have walks : WalksOn s { s.enterPass q with fsm := .awaitingRow } :=
      ⟨rfl, rfl, rfl, rfl, hs.memory, hs.handedOn, hs.filterType⟩
    exact walks.sound_of_decoding hs hb rfl ((hs.decoding hb).enterNextPass hf hi hq)
  | lastPass hf => exact hs.enterDone hf

/-- IN_PTR over a move of a sound decode (R168): it counts the bytes that are read, and an error leaves it. -/
theorem WalkMove.inPtr (hm : WalkMove s t) (hd : s.Decoding) (hb : s.busy = true) :
    (t.fsm = .error → t.pos.inPtr = s.pos.inPtr) ∧
    (t.fsm ≠ .error → t.pos.inPtr.toNat =
      s.pos.inPtr.toNat + if s.fsm = .awaitingRow ∨ s.fsm = .unfilteringRow then 1 else 0) ∧
    (t.fsm = .done → t.pos.inPtr.toNat = s.cfg.expectedSize) := by
  cases hm with
  | rest h => exact nomatch h.symm.trans hb
  | badSelector | badIndex => exact ⟨fun _ => rfl, fun h => absurd rfl h, nofun⟩
  | selector hf =>
    rw [if_pos (.inl hf)]
    exact ⟨nofun, fun _ => hd.inPtr_add_one (hd.bytesLeft_pos (.inl hf)), nofun⟩
  | dataByte hf out =>
    obtain ⟨-, not_done, not_error⟩ := ne_of_busy (busy_afterByte s out)
    rw [if_pos (.inr hf)]
    exact ⟨fun h => absurd h not_error, fun _ => hd.inPtr_add_one (hd.bytesLeft_pos (.inr hf)), fun h => absurd h not_done⟩
  | row hf =>
    obtain ⟨-, not_done, not_error⟩ := ne_of_busy (busy_completeRow s)
    exact ⟨fun h => absurd h not_error, fun _ => by simp [hf], fun h => absurd h not_done⟩
  | nextPass hf => exact ⟨nofun, fun _ => by simp [hf], nofun⟩
  | lastPass hf hn =>
    refine ⟨nofun, fun _ => by simp [hf], fun _ => ?_⟩
    have hi := hd.input
    rw [bytesLeft_passComplete hf, bytesToCome_of_last hn] at hi
    exact hi.trans (CfgRegs.accepted_of hd.accepted).input

/-! ## Accesses -/

theorem unlessBusy_wf {w : State} (hs : Memory.wf s) (hw : Memory.wf w) : Memory.wf (s.unlessBusy w) := by
  unfold State.unlessBusy
  split
  · exact hs
  · exact hw

/-- An access keeps the canonical form of the memories: it writes inside a space or not at all. -/
theorem hostAccess_wf (hm : Memory.wf s) (a : HostAction) : Memory.wf (s.hostAccess a) := by
  obtain ⟨hin, hplte, htrns, hrest⟩ := id hm
  cases a
  case writeReg offset v =>
    change Memory.wf (s.writeReg offset v)
    unfold State.writeReg
    split
    · exact unlessBusy_wf hm hm
    · exact hm
  case writeIn k v =>
    change Memory.wf (s.writeIn k v)
    unfold State.writeIn
    split
    · exact unlessBusy_wf hm ⟨cellSet_wf v ‹_› hin, hplte, htrns, hrest⟩
    · exact hm
  case writePlte k e =>
    change Memory.wf (s.writePlte k e)
    unfold State.writePlte
    split
    · exact unlessBusy_wf hm ⟨hin, cellSet_wf e ‹_› hplte, htrns, hrest⟩
    · exact hm
  case writeTrns k v =>
    change Memory.wf (s.writeTrns k v)
    unfold State.writeTrns
    split
    · exact unlessBusy_wf hm ⟨hin, hplte, cellSet_wf v ‹_› htrns, hrest⟩
    · exact hm
  all_goals exact hm

/-- Outside BUSY the inputs of a decode are free. -/
theorem State.Sound.setInputs (hs : s.Sound) (hb : s.busy = false) (hm : Memory.wf t)
    (ht : t = { s with cfg := t.cfg, inMem := t.inMem, plte := t.plte, trns := t.trns }) : t.Sound := by
  rw [ht] at hm ⊢
  exact {
    capacity := hs.capacity
    memory := hm
    handedOn := hs.handedOn
    filterType := hs.filterType
    noError := hs.noError
    someError := hs.someError
    convFormat := hs.convFormat
    convOfDone := hs.convOfDone
    converted := hs.converted
    idle := fun hf => dropPreviousResult_eq_self_iff.2 (dropPreviousResult_eq_self_iff (s := s).1 (hs.idle hf))
    decoding := fun h => absurd (hb.symm.trans h) Bool.false_ne_true
    finished := hs.finished }

theorem State.Sound.after_access (hs : s.Sound) {a : HostAction} (ha : a.command? = none) : (s.hostAccess a).Sound := by
  have hm := hostAccess_wf hs.memory a
  rcases access_cases s ha with hi | hi | ⟨v, hv⟩
  · rwa [hostAccess_idleWrite hi]
  · obtain ⟨w, he, hw⟩ := hostAccess_inputWrite hi
    rw [he] at hm ⊢
    cases hb : s.busy
    · rw [State.unlessBusy, if_neg (by simp [hb])] at hm ⊢
      exact hs.setInputs hb hm hw
    · rw [State.unlessBusy, if_pos hb]
      exact hs.congr (fun hf => absurd hf (ne_of_busy hb).1) rfl
  · rw [hostAccess_read hv]
    exact hs.congr (fun _ => rfl) rfl

/-! ## Commands -/

theorem State.Sound.withResult (hs : s.Sound) (r : CmdResult) : (s.withResult r).Sound :=
  hs.congr (fun _ => rfl) rfl

/-- A memory dropped or kept has the canonical form. -/
theorem dropPreviousResult_wf (hm : Memory.wf s) : Memory.wf s.dropPreviousResult := by
  obtain ⟨hin, hplte, htrns, hcur, hprior, -⟩ := hm
  exact ⟨hin, hplte, htrns, hcur, hprior, cellsWf_nil _, cellsWf_nil _⟩

theorem State.Sound.after_start (hs : s.Sound) (h : execStart s = .next t) : t.Sound := by
  have dropped : Memory.wf (s.withResult .accepted).dropPreviousResult :=
    dropPreviousResult_wf (s := s.withResult .accepted) hs.memory
  rcases execStart_eq_next h with ⟨-, rfl⟩ | ⟨-, e, -, rfl⟩ | ⟨-, accepted, rfl⟩
  · exact hs.withResult _
  · exact sound_raise (s := (s.withResult .accepted).dropPreviousResult) hs.capacity dropped (Nat.zero_le _) e
  · exact {
      capacity := hs.capacity
      memory := dropped
      handedOn := hs.handedOn
      filterType := Nat.zero_le _
      noError := fun _ => rfl
      someError := nofun
      convFormat := nofun
      convOfDone := nofun
      converted := nofun
      idle := nofun
      decoding := fun _ => decoding_beginWalk (s := (s.withResult .accepted).dropPreviousResult.latchRun) accepted rfl
      finished := nofun }

theorem State.Sound.after_release (hs : s.Sound) (h : execRelease s = .next t) : t.Sound := by
  rcases execRelease_eq_next h with ⟨-, rfl⟩ | ⟨-, rfl⟩
  · exact hs.withResult _
  · exact {
      capacity := hs.capacity
      memory := dropPreviousResult_wf (s := s) hs.memory
      handedOn := hs.handedOn
      filterType := Nat.zero_le _
      noError := fun _ => rfl
      someError := nofun
      convFormat := nofun
      convOfDone := nofun
      converted := nofun
      idle := fun _ => rfl
      decoding := nofun
      finished := nofun }

/-- CONV is free to change in DONE, if it lists the raster exactly while CONV_VALID. -/
theorem State.Sound.setConversion (hs : s.Sound) (hf : s.fsm = .done) {conv : List (Nat × Rgba)} {valid format : Bool}
    (result : CmdResult) (hw : cellsWf s.caps.pixels conv) (hv : format = true → valid = true)
    (hc : valid = true → ∀ pix, (cellGet conv pix).isSome = true ↔ pix < s.pixelCount) :
    ({ s with conv := conv, convFmt := format, convValid := valid, cmdResult := result } : State).Sound := by
  obtain ⟨hin, hplte, htrns, hcur, hprior, hout, -⟩ := hs.memory
  exact {
    capacity := hs.capacity
    memory := ⟨hin, hplte, htrns, hcur, hprior, hout, hw⟩
    handedOn := hs.handedOn
    filterType := hs.filterType
    noError := hs.noError
    someError := hs.someError
    convFormat := hv
    convOfDone := fun _ => hf
    converted := hc
    idle := fun h => nomatch hf.symm.trans h
    decoding := fun h => absurd ((busy_eq_false_of_done hf).symm.trans h) Bool.false_ne_true
    finished := hs.finished }

theorem State.Sound.refuseAdapter (hs : s.Sound) (hf : s.fsm = .done) : s.refuseAdapter.Sound := by
  obtain ⟨-, -, -, -, -, -, hconv⟩ := hs.memory
  exact hs.setConversion hf .refusedAdapter hconv nofun nofun

theorem State.Sound.after_conversion (hs : s.Sound) (hf : s.fsm = .done) {adapter : Option ((Fin 4 → Half) → Rgba)} {format : Bool}
    (h : convertRaster adapter format s = .next t) : t.Sound := by
  obtain ⟨hp, adapt, -, rfl⟩ := convertRaster_eq_next h
  refine hs.setConversion hf .accepted (convertedRaster_wf adapt hp) (fun _ => rfl) fun _ pix => ?_
  rw [cellGet_convertedRaster]
  split <;> simp_all

theorem State.Sound.after_command (hs : s.Sound) {i : Instr} (hi : i.format = .command) (h : exec i s = .next t) : t.Sound := by
  rcases exec_command hi s with ⟨-, he⟩ | ⟨-, he⟩ | ⟨-, he⟩ | ⟨-, he⟩ | ⟨-, he⟩ <;> rw [he] at h
  · cases h
    exact hs.withResult _
  · exact hs.after_start h
  · rcases execConvertRgba8_eq_next h with ⟨-, rfl⟩ | ⟨hf, -, rfl⟩ | ⟨hf, -, hc⟩
    · exact hs.withResult _
    · exact hs.refuseAdapter hf
    · exact hs.after_conversion hf hc
  · rcases execConvertRgba16_eq_next h with ⟨-, rfl⟩ | ⟨hf, -, rfl⟩ | ⟨hf, -, hc⟩
    · exact hs.withResult _
    · exact hs.refuseAdapter hf
    · exact hs.after_conversion hf hc
  · exact hs.after_release h

theorem HostMove.sound {a : HostAction} (hm : HostMove a s t) (hs : s.Sound) : t.Sound := by
  cases hm with
  | command i _ _ _ hf _ h => exact hs.after_command hf h
  | undefined => exact hs.withResult _
  | access ha => exact hs.after_access ha

/-- Inside BUSY a host action changes CMD_RESULT, BUSYWR and what the host has read alone (`44_commands.md` R250, R269). -/
theorem HostMove.frame_of_busy {a : HostAction} (hm : HostMove a s t) (hb : s.busy = true) :
    t = { s with cmdResult := t.cmdResult, busyWr := t.busyWr, lastRead := t.lastRead } := by
  have not_done : s.fsm ≠ .done := (ne_of_busy hb).2.1
  cases hm with
  | undefined => rfl
  | access ha =>
    rcases access_cases s ha with hi | hi | ⟨v, hv⟩
    · rw [hostAccess_idleWrite hi]
    · obtain ⟨w, he, -⟩ := hostAccess_inputWrite hi
      rw [he, State.unlessBusy, if_pos hb]
    · rw [hostAccess_read hv]
      rfl
  | command i _ _ _ hf _ h =>
    rcases exec_command hf s with ⟨-, he⟩ | ⟨-, he⟩ | ⟨-, he⟩ | ⟨-, he⟩ | ⟨-, he⟩ <;> rw [he] at h
    · cases h
      rfl
    · rcases execStart_eq_next h with ⟨-, rfl⟩ | ⟨hn, -⟩ | ⟨hn, -⟩
      · rfl
      · exact nomatch hn.symm.trans hb
      · exact nomatch hn.symm.trans hb
    · rcases execConvertRgba8_eq_next h with ⟨-, rfl⟩ | ⟨hd, -⟩ | ⟨hd, -⟩
      · rfl
      · exact absurd hd not_done
      · exact absurd hd not_done
    · rcases execConvertRgba16_eq_next h with ⟨-, rfl⟩ | ⟨hd, -⟩ | ⟨hd, -⟩
      · rfl
      · exact absurd hd not_done
      · exact absurd hd not_done
    · rcases execRelease_eq_next h with ⟨-, rfl⟩ | ⟨hn, -⟩
      · rfl
      · exact nomatch hn.symm.trans hb

/-! ## Reset -/

theorem State.Sound.hardReset (hs : s.Sound) : s.hardReset.Sound where
  capacity := hs.capacity
  memory := ⟨cellsWf_nil _, cellsWf_nil _, cellsWf_nil _, cellsWf_nil _, cellsWf_nil _, cellsWf_nil _, cellsWf_nil _⟩
  handedOn := rfl
  filterType := Nat.zero_le _
  noError _ := rfl
  someError := nofun
  convFormat := nofun
  convOfDone := nofun
  converted := nofun
  idle _ := rfl
  decoding := nofun
  finished := nofun

/-! ## A sound machine goes on -/

theorem adapter8_of_adaptable {r : RunRegs} (h : r.adaptable) (hb : r.bd.toNat ≤ 8) : ∃ adapt, adapter8 r.kind = some adapt := by
  rw [RunRegs.adaptable, if_pos hb] at h
  exact Option.isSome_iff_exists.1 h

theorem adapter16_of_adaptable {r : RunRegs} (h : r.adaptable) (hb : 8 < r.bd.toNat) :
    ∃ adapt, adapter16 r.kind = some adapt := by
  rw [RunRegs.adaptable, if_neg (by omega)] at h
  exact Option.isSome_iff_exists.1 h

theorem convertRaster_of_fit {adapt : (Fin 4 → Half) → Rgba} (hp : s.pixelCount ≤ s.caps.pixels) (format : Bool) :
    ∃ t, convertRaster (some adapt) format s = .next t :=
  ⟨_, if_pos hp⟩

theorem State.Sound.convertRgba8_goes_on (hs : s.Sound) : ∃ t, execConvertRgba8 s = .next t := by
  unfold execConvertRgba8
  split
  case isFalse => exact ⟨_, rfl⟩
  case isTrue hf =>
    obtain ⟨hp, ha⟩ := hs.finished hf
    split
    · exact ⟨_, rfl⟩
    · obtain ⟨adapt, he⟩ := adapter8_of_adaptable ha (by omega)
      rw [he]
      exact convertRaster_of_fit hp false

theorem State.Sound.convertRgba16_goes_on (hs : s.Sound) : ∃ t, execConvertRgba16 s = .next t := by
  unfold execConvertRgba16
  split
  case isFalse => exact ⟨_, rfl⟩
  case isTrue hf =>
    obtain ⟨hp, ha⟩ := hs.finished hf
    split
    · exact ⟨_, rfl⟩
    · obtain ⟨adapt, he⟩ := adapter16_of_adaptable ha (by omega)
      rw [he]
      exact convertRaster_of_fit hp true

theorem execStart_goes_on (s : State) : ∃ t, execStart s = .next t := by
  unfold execStart
  split
  · exact ⟨_, rfl⟩
  · cases s.cfg.startError s.caps <;> exact ⟨_, rfl⟩

theorem execRelease_goes_on (s : State) : ∃ t, execRelease s = .next t := by
  unfold execRelease
  split <;> exact ⟨_, rfl⟩

theorem State.Sound.command_goes_on (hs : s.Sound) {i : Instr} (hi : i.format = .command) : ∃ t, exec i s = .next t := by
  rcases exec_command hi s with ⟨-, he⟩ | ⟨-, he⟩ | ⟨-, he⟩ | ⟨-, he⟩ | ⟨-, he⟩ <;> rw [he]
  · exact ⟨_, rfl⟩
  · exact execStart_goes_on s
  · exact hs.convertRgba8_goes_on
  · exact hs.convertRgba16_goes_on
  · exact execRelease_goes_on s

theorem State.Sound.host_goes_on (hs : s.Sound) (a : HostAction) : ∃ t, hostStep a s = .next t := by
  cases ha : a.command? with
  | none => exact ⟨_, hostStep_access ha s⟩
  | some value =>
    cases hd : decodeCommand value with
    | ok i =>
      rw [hostStep_command ha hd]
      exact hs.command_goes_on (decode_format hd)
    | error e => exact ⟨_, hostStep_undefined ha hd s⟩

end

end Sys2Proof.Machine
end

section
/-! SUPPORT. The statements on soundness settled. -/

namespace Sys2Proof.Machine

/-- Settles O54, by what one step can do. -/
theorem everyStepKeepsSoundness : Obligations.EveryStepKeepsSoundness := by
  intro s t hs h
  rcases step_eq_next h with ⟨he, -⟩ | ⟨a, -, hm⟩ | ⟨-, rfl⟩
  · exact (hs.walkMove he h).sound hs.beginStep
  · exact hm.sound hs.beginStep
  · exact hs.beginStep.hardReset

/-- Settles O55, by who takes the step. -/
theorem soundStatesNeverStop : Obligations.SoundStatesNeverStop := by
  intro s hs
  match ha : s.agenda.head? with
  | none =>
    obtain ⟨t, ht, -⟩ := hs.beginStep.engine_goes_on
    exact ⟨t, (step_engine (.inl ha)).trans ht⟩
  | some .engine =>
    obtain ⟨t, ht, -⟩ := hs.beginStep.engine_goes_on
    exact ⟨t, (step_engine (.inr ha)).trans ht⟩
  | some (.host a) =>
    obtain ⟨t, ht⟩ := hs.beginStep.host_goes_on a
    exact ⟨t, (step_host ha).trans ht⟩
  | some .reset => exact ⟨s.beginStep.hardReset, by simp only [step, ha]⟩

end Sys2Proof.Machine
end

section
/-! SUPPORT. The statements of `41_adam7.md` on the steps of the walk settled. -/

namespace Sys2Proof.Machine

/-- Settles O5: a step is the turn of the engine or of the host, and each of them decodes and runs. -/
theorem stepRunsTheDecodedInstruction : Obligations.StepRunsTheDecodedInstruction := by
  intro s
  refine ⟨fun he hf hx ft i hft hd => ?_, fun he hf hx f m hdf hdm => ?_, fun value i hn hd => ?_, fun he hf => ?_⟩
  · rw [step_awaiting he hf]
    exact awaitingRowStep_of_decode hx hft hd
  · rw [step_unfiltering he hf]
    exact unfilteringRowStep_of_decode hx hdf hdm
  · rw [step_host hn]
    exact hostStep_command rfl hd _
  · refine step_resting he ?_
    rcases hf with hf | hf | hf <;> simp [State.busy, hf]

/-- Settles O6: the listed types are the encodings of their selectors. -/
theorem selectorLatchesItsFilterType : Obligations.SelectorLatchesItsFilterType := by
  intro p hp s
  have selectors : ∀ p ∈ ([(.filtNone, 0), (.filtSub, 1), (.filtUp, 2), (.filtAvg, 3), (.filtPaeth, 4)] :
      List (Instr × BitVec 3)), p.1.format = .filter ∧ (encode p.1).bits.setWidth 3 = p.2 := by
    decide
  obtain ⟨hf, ht⟩ := selectors p hp
  rw [exec_filter_recon hf, ht]
  exact ⟨runFilter_of_awaiting _ _, runFilter_of_other _ _⟩

/-- Settles O21: past IN_LEN the exhaustion exit, before it the selector that IN holds. -/
theorem awaitingRowReadsASelector : Obligations.AwaitingRowReadsASelector := by
  intro s he hf hcap b ft
  rw [step_awaiting he hf]
  rcases Nat.lt_or_ge s.pos.inPtr.toNat s.cfg.inLen.toNat with hi | hi
  · have hx : b.exhausted = false := decide_eq_false (Nat.not_le.2 hi)
    have hin : b.pos.inPtr.toNat < b.caps.inBytes := Nat.lt_of_lt_of_le hi hcap
    rcases Nat.lt_or_ge 4 ft.toNat with h | h
    · exact ⟨_, awaitingRowStep_of_illegal hx hin h, fun hl => absurd hi (Nat.not_lt.2 hl),
        fun _ hle => absurd h (Nat.not_lt.2 hle), fun _ _ => ⟨rfl, rfl, rfl, rfl⟩⟩
    · exact ⟨_, awaitingRowStep_of_legal hf hx hin h, fun hl => absurd hi (Nat.not_lt.2 hl), fun _ _ => rfl,
        fun _ hgt => absurd hgt (Nat.not_lt.2 h)⟩
  · have hx : b.exhausted = true := decide_eq_true hi
    exact ⟨b.enterDone, if_pos hx, fun _ => rfl, fun hl => absurd hl (Nat.not_lt.2 hi), fun hl => absurd hl (Nat.not_lt.2 hi)⟩

/-- Settles O22: the moves of a sound state in UnfilteringRow are the data byte and the palette error. -/
theorem unfilteringRowAdvancesOneByte : Obligations.UnfilteringRowAdvancesOneByte := by
  intro s hs he hf i
  obtain ⟨t, ht, hm⟩ := hs.beginStep.engine_goes_on
  refine ⟨t, (step_engine he).trans ht, ?_⟩
  have hf' : s.beginStep.fsm = .unfilteringRow := hf
  cases hm with
  | badIndex h ho => exact .inl ⟨rfl, rfl, rfl, indexed_of_outAfterByte (s := s.beginStep) ho⟩
  | dataByte h out ho =>
    have none_left : s.beginStep.samples = [] := hs.handedOn
    refine .inr ⟨rfl, rfl, cellGet_cellSet_same .., fun j hj => cellGet_cellSet_other _ _ hj.symm, ?_⟩
    unfold State.afterByte
    rw [← none_left]
    rfl
  | rest h => exact nomatch (busy_of_unfiltering hf').symm.trans h
  | selector h | badSelector h | row h | nextPass h | lastPass h => exact nomatch hf'.symm.trans h

/-- Settles O23, with the row copied as `cellsCopyBelow` says. -/
theorem rowCompleteMakesTheRowPrior : Obligations.RowCompleteMakesTheRowPrior := by
  intro s he hf
  refine ⟨s.beginStep.completeRow, step_rowComplete he hf, fun j hj => ?_, fun j hj => ?_, rfl⟩
  · exact (cellGet_cellsCopyBelow ..).trans (if_pos hj)
  · exact (cellGet_cellsCopyBelow ..).trans (if_neg (Nat.not_lt.2 hj))

/-- Settles O24: the next pass is the least later one that is not empty. -/
theorem passCompleteEntersTheNextPass : Obligations.PassCompleteEntersTheNextPass := by
  intro s he hf b
  rw [step_passComplete he hf]
  refine ⟨fun h0 => congrArg _ (if_pos h0), fun _ hnone => congrArg _ (completePass_of_none ?_),
    fun hi q hp h7 hn hleast => congrArg _ (completePass_of_next (s := b) hi ?_)⟩
  · exact nextPass_eq_none_iff.2 hnone
  · exact nextPass_eq_some_iff.2 ⟨hp, h7, hn, hleast⟩

/-- Settles O25: the engine's move reads its byte, and a host action inside BUSY leaves the walk. -/
theorem eachInputByteIsReadOnceInOrder : Obligations.EachInputByteIsReadOnceInOrder := by
  intro s t hs hb h hr
  rcases step_eq_next h with ⟨he, -⟩ | ⟨a, ha, hm⟩ | ⟨hreset, -⟩
  · obtain ⟨error, read, done⟩ := (hs.walkMove he h).inPtr (hs.beginStep.decoding hb) hb
    exact ⟨error, fun hne _ => read hne, fun hn => absurd he hn, done⟩
  · obtain ⟨-, not_done, not_error⟩ := ne_of_busy hb
    have frame := hm.frame_of_busy hb
    have fsm : t.fsm = s.fsm := by rw [frame]; rfl
    have pos : t.pos = s.pos := by rw [frame]; rfl
    have not_engine : ¬ s.engineNext := by simp [State.engineNext, ha]
    exact ⟨fun he => absurd (fsm ▸ he) not_error, fun _ he => absurd he not_engine, fun _ => ⟨congrArg _ pos, fsm⟩,
      fun hd => absurd (fsm ▸ hd) not_done⟩
  · exact absurd hreset hr

end Sys2Proof.Machine
end

section
/-! SUPPORT. The raster while it is written (`41_adam7.md` R169): the slots of OUT that a data byte writes are those of the local
positions whose samples it completes. -/

namespace Sys2Proof.Machine

/-! ## The slots that samples write -/

theorem isSome_cellGet_iff {α : Type} {m : List (Nat × α)} {a : Nat} : (cellGet m a).isSome = true ↔ ∃ c ∈ m, c.1 = a := by
  rw [← not_iff_not, Bool.not_eq_true, Option.isSome_eq_false_iff, Option.isNone_iff_eq_none, cellGet_eq_none]
  exact ⟨fun h ⟨c, hc, he⟩ => h c hc he, fun h c hc he => h ⟨c, hc, he⟩⟩

theorem outSlot_eq_iff {pix a : Nat} {ch : Fin 4} : outSlot pix ch = a ↔ pix = a / 4 ∧ ch.val = a % 4 := by
  have := ch.isLt
  unfold outSlot
  omega

/-- The samples write slot `a` of OUT under a rule. -/
def WritesSlot (rule : Sample → Option (List (Fin 4 × Half))) (xs : List Sample) (a : Nat) : Prop :=
  ∃ x ∈ xs, ∃ ws, rule x = some ws ∧ ∃ w ∈ ws, outSlot x.pix w.1 = a

section
variable {rule : Sample → Option (List (Fin 4 × Half))} {xs : List Sample} {o o' : List (Nat × Half)} {a : Nat}

theorem writesSlot_cons {x : Sample} {ws : List (Fin 4 × Half)} (h : rule x = some ws) :
    WritesSlot rule (x :: xs) a ↔ (∃ w ∈ ws, outSlot x.pix w.1 = a) ∨ WritesSlot rule xs a := by
  simp [WritesSlot, h]

/-- A slot is listed afterwards exactly if it was, or a sample writes it. -/
theorem isSome_assemble (h : assemble rule xs o = some o') :
    (cellGet o' a).isSome = true ↔ (cellGet o a).isSome = true ∨ WritesSlot rule xs a := by
  induction xs generalizing o with
  | nil =>
    cases h
    simp [WritesSlot]
  | cons x xs ih =>
    unfold assemble at h
    split at h
    · rename_i ws hws
      rw [ih h, isSome_outWrites, writesSlot_cons hws, or_assoc]
    · cases h

theorem cellGet_outWrites_unwritten (o : List (Nat × Half)) {pix : Nat} {ws : List (Fin 4 × Half)}
    (h : ∀ w ∈ ws, outSlot pix w.1 ≠ a) : cellGet (outWrites o pix ws) a = cellGet o a := by
  induction ws generalizing o with
  | nil => rfl
  | cons w ws ih =>
    obtain ⟨hw, hws⟩ := List.forall_mem_cons.1 h
    rw [outWrites, ih _ hws, cellGet_cellSet_other _ _ hw]

/-- A slot that no sample writes keeps its value. -/
theorem cellGet_assemble_unwritten (h : assemble rule xs o = some o') (hn : ¬ WritesSlot rule xs a) :
    cellGet o' a = cellGet o a := by
  induction xs generalizing o with
  | nil =>
    cases h
    rfl
  | cons x xs ih =>
    unfold assemble at h
    split at h
    · rename_i ws hws
      rw [writesSlot_cons hws, not_or] at hn
      obtain ⟨here, later⟩ := hn
      rw [ih h later]
      exact cellGet_outWrites_unwritten o fun w hw he => here ⟨w, hw, he⟩
    · cases h

theorem rule_of_assemble (h : assemble rule xs o = some o') : ∀ x ∈ xs, ∃ ws, rule x = some ws := by
  induction xs generalizing o with
  | nil => nofun
  | cons x xs ih =>
    unfold assemble at h
    split at h
    · rename_i ws hws
      exact List.forall_mem_cons.2 ⟨⟨ws, hws⟩, ih h⟩
    · cases h

end

/-! ## The channels of a format -/

/-- The bit depth of a legal format (`30_encoding.md` R94). -/
theorem depth_of_legal {ct bd : Byte} (h : legalFormat ct bd = true) : bd.toNat ∈ [1, 2, 4, 8, 16] :=
  of_decide_eq_true (forall_legalFormat (test := fun _ bd => decide (bd.toNat ∈ [1, 2, 4, 8, 16])) (by decide) h)

theorem channels_of_legal {ct bd : Byte} (h : legalFormat ct bd = true) : 0 < channels ct ∧ channels ct ≤ 4 :=
  of_decide_eq_true (forall_legalFormat (test := fun ct _ => decide (0 < channels ct ∧ channels ct ≤ 4)) (by decide) h)

section
variable {r : RunRegs} {c : CfgRegs}

/-- Every channel of the raster has its source among the sample's channels. -/
theorem sourceChannel_lt (h : legalFormat c.colorType c.bitDepth = true) {ch : Fin 4}
    (hc : ch.val < c.latched.kind.channelCount) : c.latched.sourceChannel ch.val < channels c.colorType := by
  have all := forall_legalFormat (test := fun ct bd => decide (∀ (trns : Bool) (ch : Fin 4),
    ch.val < (selectKind ct bd trns).channelCount → (if ct = 3 then 0 else ch.val) < channels ct)) (by decide) h
  exact of_decide_eq_true all c.trnsValid ch hc

/-- A raster that is not indexed has the channels of its samples (R210). -/
theorem channelCount_of_not_indexed (h : legalFormat c.colorType c.bitDepth = true) (hct : c.colorType ≠ 3) :
    c.latched.kind.channelCount = channels c.colorType := by
  have all := forall_legalFormat (test := fun ct bd => decide (ct ≠ 3 → ∀ trns : Bool,
    (selectKind ct bd trns).channelCount = channels ct)) (by decide) h
  exact of_decide_eq_true all hct c.trnsValid

theorem kind_of_indexed (hct : c.colorType = 3) : c.latched.kind = if c.trnsValid then .rgba8 else .rgb8 := by
  simp [CfgRegs.latched, selectKind, hct]

/-- An indexed sample writes every channel of the raster (R229). -/
theorem indexedPixel_channels {s : State} (hk : s.run.kind = .rgba8 ∨ s.run.kind = .rgb8) {x : Sample}
    {ws : List (Fin 4 × Half)} (hw : indexedPixel s x = some ws) (ch : Fin 4) :
    (∃ w ∈ ws, w.1 = ch) ↔ ch.val < s.run.kind.channelCount := by
  unfold indexedPixel at hw
  simp only at hw
  split at hw
  · obtain rfl := Option.some.inj hw
    rcases hk with hk | hk <;> fin_cases ch <;> simp [hk, RasterKind.channelCount]
  · cases hw

theorem own_channel {x : Sample} {n : Nat} (hx : x.ch.val < n) (v : Half) (ch : Fin 4) :
    (∃ w ∈ [(x.ch, v)], w.1 = ch) ↔ ch.val < n ∧ ch.val = x.ch.val := by
  simp only [List.mem_singleton, exists_eq_left]
  exact ⟨fun h => h ▸ ⟨hx, rfl⟩, fun ⟨_, h⟩ => Fin.ext h.symm⟩

/-- The channels a rule writes for a sample are those of the raster whose source channel is the sample's (R214 to R233). -/
theorem pixelRule_channels {s : State} (hr : s.run = c.latched) (h : legalFormat s.run.ct s.run.bd = true) {x : Sample}
    {ws : List (Fin 4 × Half)} (hw : pixelRule s.run.ct s.run.bd s x = some ws) (hx : x.ch.val < channels s.run.ct)
    (ch : Fin 4) :
    (∃ w ∈ ws, w.1 = ch) ↔ ch.val < s.run.kind.channelCount ∧ s.run.sourceChannel ch.val = x.ch.val := by
  have ct : s.run.ct = c.colorType := hr ▸ rfl
  have bd : s.run.bd = c.bitDepth := hr ▸ rfl
  rw [ct] at h hw hx
  rw [bd] at h hw
  rw [RunRegs.sourceChannel, ct]
  unfold pixelRule at hw
  split_ifs at hw ⊢ with indexed grey
  · have kind : s.run.kind = .rgba8 ∨ s.run.kind = .rgb8 := by
      rw [hr, kind_of_indexed indexed]
      cases c.trnsValid <;> simp
    have first : x.ch.val = 0 := by simpa [indexed, channels] using hx
    rw [indexedPixel_channels kind hw, first]
    simp
  all_goals
    have count : s.run.kind.channelCount = channels c.colorType := hr ▸ channelCount_of_not_indexed h indexed
    obtain rfl := Option.some.inj hw
    rw [count]
  · have first : x.ch = 0 := Fin.ext (by simpa [grey, channels] using hx)
    exact first ▸ own_channel hx _ ch
  · have first : x.ch = 0 := Fin.ext (by simpa [grey, channels] using hx)
    exact first ▸ own_channel hx _ ch
  · exact own_channel hx x.v ch

/-! ## The byte that completes a sample -/

theorem div_eq_iff_exists {index n i : Nat} (hn : 0 < n) : index / n = i ↔ ∃ k < n, i * n + k = index := by
  constructor
  · rintro rfl
    exact ⟨index % n, Nat.mod_lt _ hn, Nat.div_add_mod' index n⟩
  · rintro ⟨k, hk, rfl⟩
    rw [Nat.mul_comm, Nat.mul_add_div hn, Nat.div_eq_of_lt hk, Nat.add_zero]

theorem mem_rowSamples_iff {s : State} (hb : s.run.bd.toNat ∈ [1, 2, 4, 8, 16]) {index i : Nat} :
    (∃ v, (index, v) ∈ s.rowSamples i) ↔ s.run.completingByte index = i := by
  unfold State.rowSamples RunRegs.completingByte
  simp only
  split_ifs with low whole odd
  · rw [div_eq_iff_exists (Nat.div_pos (Nat.le_of_lt low) (by simp at hb; omega))]
    simp
  · simp
  · simp
    omega
  · simp
    omega

/-- The samples of a row are completed by the bytes of the row. -/
theorem completingByte_lt (hb : r.bd.toNat ∈ [1, 2, 4, 8, 16]) {index n : Nat} (h : index < n) :
    r.completingByte index < cdiv (n * r.bd.toNat) 8 := by
  rw [lt_cdiv_iff _ _ _ (by decide)]
  unfold RunRegs.completingByte
  generalize r.bd.toNat = bd at *
  fin_cases hb <;> simp <;> omega

end

end Sys2Proof.Machine
end

section
/-! SUPPORT. OUT lists exactly the channels the walk has emitted (`41_adam7.md` R169): what a data byte emits, what it adds to the
emitted channels, and that every move of a sound state keeps State.RasterTrue. -/

namespace Sys2Proof.Machine

/-! ## What a data byte emits -/

/-- The byte at LBYTE completes the source of channel `ch` of local position (lx, ly) of pass `q`. -/
def State.emitsNext (s : State) (q lx ly ch : Nat) : Prop :=
  q = s.pos.pass.toNat ∧ ly = s.pos.lrow.toNat ∧
    s.run.completingByte (lx * channels s.run.ct + s.run.sourceChannel ch) = s.pos.lbyte.toNat

/-- A sample is placed exactly if its final position lies in the raster (R195, R197). -/
theorem placeSample_eq_some_iff {s : State} {index value : Nat} {x : Sample} :
    s.placeSample index value = some x ↔
      (finalX s.geo.sx s.geo.dx (index / channels s.run.ct) < s.run.w.toNat ∧
        finalY s.geo.sy s.geo.dy s.pos.lrow.toNat < s.run.h.toNat) ∧
      x = ⟨pixelIndex s.run.w.toNat (finalX s.geo.sx s.geo.dx (index / channels s.run.ct))
        (finalY s.geo.sy s.geo.dy s.pos.lrow.toNat), Fin.ofNat 4 (index % channels s.run.ct), BitVec.ofNat 16 value⟩ := by
  unfold State.placeSample
  simp only
  split_ifs with h
  · simp [h, eq_comm]
  · simp [h]

section
variable {s : State} {q lx ly pix i : Nat}

theorem State.Decoding.channels_bounds (hd : s.Decoding) : 0 < channels s.run.ct ∧ channels s.run.ct ≤ 4 :=
  channels_of_legal hd.legal

theorem State.Decoding.depth (hd : s.Decoding) : s.run.bd.toNat ∈ [1, 2, 4, 8, 16] :=
  depth_of_legal hd.legal

theorem State.Decoding.source_lt (hd : s.Decoding) {ch : Fin 4} (hc : ch.val < s.run.kind.channelCount) :
    s.run.sourceChannel ch.val < channels s.run.ct := by
  have legal := hd.legal
  rw [hd.latched] at hc legal ⊢
  exact sourceChannel_lt legal hc

/-- A sample of a row byte comes from a local position of the current pass and row, by its index in the row. -/
theorem State.Decoding.localOf_emitted (hd : s.Decoding) {x : Sample} (hx : x ∈ s.emitted i) :
    x.ch.val < channels s.run.ct ∧ ∃ lx, LocalOf s.run s.pos.pass.toNat lx s.pos.lrow.toNat x.pix ∧
      s.run.completingByte (lx * channels s.run.ct + x.ch.val) = i := by
  obtain ⟨positive, four⟩ := hd.channels_bounds
  obtain ⟨⟨index, value⟩, hrow, hplace⟩ := List.mem_filterMap.1 hx
  obtain ⟨⟨hfx, hfy⟩, rfl⟩ := placeSample_eq_some_iff.1 hplace
  have hmod := Nat.mod_lt index positive
  have hch : (Fin.ofNat 4 (index % channels s.run.ct)).val = index % channels s.run.ct :=
    Nat.mod_eq_of_lt (by omega)
  refine ⟨hch.trans_lt hmod, index / channels s.run.ct, ?_, ?_⟩
  · rw [hd.geometry] at hfx hfy ⊢
    exact localOf_iff.2 ⟨hd.inImage, hfx, hfy, rfl⟩
  · rw [hch, Nat.div_add_mod']
    exact (mem_rowSamples_iff hd.depth).1 ⟨value, hrow⟩

/-- A local position of the current pass and row has its sample in the byte that completes it. -/
theorem State.Decoding.exists_emitted (hd : s.Decoding) (hl : LocalOf s.run s.pos.pass.toNat lx s.pos.lrow.toNat pix) {k : Nat}
    (hk : k < channels s.run.ct) (hi : s.run.completingByte (lx * channels s.run.ct + k) = i) :
    ∃ x ∈ s.emitted i, x.pix = pix ∧ x.ch.val = k := by
  obtain ⟨positive, four⟩ := hd.channels_bounds
  obtain ⟨value, hrow⟩ := (mem_rowSamples_iff hd.depth).2 hi
  obtain ⟨-, hfx, hfy, rfl⟩ := localOf_iff.1 hl
  have hdiv : (lx * channels s.run.ct + k) / channels s.run.ct = lx := by
    rw [Nat.mul_comm, Nat.mul_add_div positive, Nat.div_eq_of_lt hk, Nat.add_zero]
  have hmod : (lx * channels s.run.ct + k) % channels s.run.ct = k := by
    rw [Nat.mul_comm, Nat.mul_add_mod, Nat.mod_eq_of_lt hk]
  refine ⟨_, List.mem_filterMap.2 ⟨_, hrow, placeSample_eq_some_iff.2 ⟨?_, rfl⟩⟩, ?_, ?_⟩
  · rw [hd.geometry, hdiv]
    exact ⟨hfx, hfy⟩
  · simp only [hd.geometry, hdiv]
    rfl
  · simp only [hmod]
    exact Nat.mod_eq_of_lt (by omega)

theorem State.Decoding.withByte (hd : s.Decoding) : s.withByte.Decoding :=
  ⟨hd.accepted, hd.latched, hd.inImage, hd.nonEmpty, hd.geometry, hd.row, hd.byte, hd.input⟩

/-- The samples of the byte at LBYTE are those of the channels it emits. -/
theorem State.Decoding.exists_byteSample_iff (hd : s.Decoding) (hl : LocalOf s.run q lx ly pix) {ch : Fin 4}
    (hc : ch.val < s.run.kind.channelCount) :
    (∃ x ∈ s.byteSamples, x.pix = pix ∧ x.ch.val = s.run.sourceChannel ch.val) ↔ s.emitsNext q lx ly ch.val := by
  constructor
  · rintro ⟨x, hx, rfl, hch⟩
    obtain ⟨-, lx', hl', hi⟩ := hd.withByte.localOf_emitted hx
    obtain ⟨hq, hlx, hly⟩ := hl'.unique hl
    rw [hch, ← hlx] at hi
    exact ⟨hq, hly, hi⟩
  · rintro ⟨rfl, rfl, hi⟩
    exact hd.withByte.exists_emitted hl (hd.source_lt hc) hi

/-- The rule of the image as the byte's samples meet it. -/
abbrev State.byteRule (s : State) : Sample → Option (List (Fin 4 × Half)) :=
  pixelRule s.run.ct s.run.bd s.handingOn

/-- The slots that a sample of the byte writes. -/
theorem State.Decoding.byteRule_writes (hd : s.Decoding) {x : Sample} (hx : x ∈ s.byteSamples) {ws : List (Fin 4 × Half)}
    (hws : s.byteRule x = some ws) (a : Nat) :
    (∃ w ∈ ws, outSlot x.pix w.1 = a) ↔
      x.pix = a / 4 ∧ a % 4 < s.run.kind.channelCount ∧ s.run.sourceChannel (a % 4) = x.ch.val := by
  have hch := (hd.withByte.localOf_emitted hx).1
  have channel := pixelRule_channels (s := s.handingOn) hd.latched hd.legal hws hch ⟨a % 4, Nat.mod_lt a (by decide)⟩
  rw [← show _ ↔ a % 4 < s.run.kind.channelCount ∧ s.run.sourceChannel (a % 4) = x.ch.val from channel]
  simp only [outSlot_eq_iff, Fin.ext_iff]
  exact ⟨fun ⟨w, hw, hp, hc⟩ => ⟨hp, w, hw, hc⟩, fun ⟨hp, w, hw, hc⟩ => ⟨w, hw, hp, hc⟩⟩

/-- The slots that the byte's samples write. -/
theorem State.Decoding.writesSlot_iff (hd : s.Decoding) {out : List (Nat × Half)} (ho : s.outAfterByte = some out) {a : Nat} :
    WritesSlot s.byteRule s.byteSamples a ↔ a % 4 < s.run.kind.channelCount ∧
      ∃ x ∈ s.byteSamples, x.pix = a / 4 ∧ x.ch.val = s.run.sourceChannel (a % 4) := by
  constructor
  · rintro ⟨x, hx, ws, hws, hw⟩
    obtain ⟨hp, hc, hs⟩ := (hd.byteRule_writes hx hws a).1 hw
    exact ⟨hc, x, hx, hp, hs.symm⟩
  · rintro ⟨hc, x, hx, hp, hs⟩
    obtain ⟨ws, hws⟩ := rule_of_assemble ho x hx
    exact ⟨x, hx, ws, hws, (hd.byteRule_writes hx hws a).2 ⟨hp, hc, hs.symm⟩⟩

/-- The byte writes a channel of a local position exactly if it emits it. -/
theorem State.Decoding.writesSlot_iff_emitsNext (hd : s.Decoding) {out : List (Nat × Half)} (ho : s.outAfterByte = some out)
    (hl : LocalOf s.run q lx ly pix) {ch : Fin 4} (hc : ch.val < s.run.kind.channelCount) :
    WritesSlot s.byteRule s.byteSamples (outSlot pix ch) ↔ s.emitsNext q lx ly ch.val := by
  rw [hd.writesSlot_iff ho, outSlot_div, outSlot_mod, hd.exists_byteSample_iff hl hc]
  exact and_iff_right hc

/-! ## The channels emitted so far -/

theorem hasEmitted_done (h : s.fsm = .done) (q lx ly ch : Nat) : s.hasEmitted q lx ly ch :=
  .inl h

theorem hasEmitted_awaiting (h : s.fsm = .awaitingRow) {q lx ly ch : Nat} :
    s.hasEmitted q lx ly ch ↔ q < s.pos.pass.toNat ∨ (q = s.pos.pass.toNat ∧ ly < s.pos.lrow.toNat) := by
  simp [State.hasEmitted, h]

theorem hasEmitted_unfiltering (h : s.fsm = .unfilteringRow) {q lx ly ch : Nat} :
    s.hasEmitted q lx ly ch ↔ q < s.pos.pass.toNat ∨ (q = s.pos.pass.toNat ∧ (ly < s.pos.lrow.toNat ∨ (ly = s.pos.lrow.toNat ∧
      s.run.completingByte (lx * channels s.run.ct + s.run.sourceChannel ch) < s.pos.lbyte.toNat))) := by
  simp [State.hasEmitted, h]

theorem hasEmitted_rowComplete (h : s.fsm = .rowComplete) {q lx ly ch : Nat} :
    s.hasEmitted q lx ly ch ↔
      q < s.pos.pass.toNat ∨ (q = s.pos.pass.toNat ∧ (ly < s.pos.lrow.toNat ∨ ly = s.pos.lrow.toNat)) := by
  simp [State.hasEmitted, h]

theorem hasEmitted_passComplete (h : s.fsm = .passComplete) {q lx ly ch : Nat} :
    s.hasEmitted q lx ly ch ↔ q < s.pos.pass.toNat ∨ q = s.pos.pass.toNat := by
  simp [State.hasEmitted, h]

/-- Every channel of a local position of the row is completed by a byte of the row. -/
theorem State.Decoding.completingByte_lt_rb (hd : s.Decoding) (hl : LocalOf s.run s.pos.pass.toNat lx ly pix) {ch : Fin 4}
    (hc : ch.val < s.run.kind.channelCount) :
    s.run.completingByte (lx * channels s.run.ct + s.run.sourceChannel ch.val) < s.geo.rb := by
  have source := hd.source_lt hc
  have pbits : s.run.pbits = channels s.run.ct * s.run.bd.toNat := hd.latched ▸ rfl
  have index : lx * channels s.run.ct + s.run.sourceChannel ch.val <
      passCols s.pos.pass.toNat s.run.w.toNat * channels s.run.ct :=
    calc lx * channels s.run.ct + s.run.sourceChannel ch.val < (lx + 1) * channels s.run.ct := by
          rw [Nat.succ_mul]
          omega
      _ ≤ passCols s.pos.pass.toNat s.run.w.toNat * channels s.run.ct := Nat.mul_le_mul_right _ hl.column
  rw [hd.rb_eq, rowBytes, pbits, ← Nat.mul_assoc]
  exact completingByte_lt hd.depth index

/-- A data byte adds what it emits to the emitted channels. -/
theorem State.Decoding.hasEmitted_afterByte (hd : s.Decoding) (hf : s.fsm = .unfilteringRow) (out : List (Nat × Half))
    (hl : LocalOf s.run q lx ly pix) {ch : Fin 4} (hc : ch.val < s.run.kind.channelCount) :
    (s.afterByte out).hasEmitted q lx ly ch.val ↔ s.hasEmitted q lx ly ch.val ∨ s.emitsNext q lx ly ch.val := by
  have lbyte := hd.lbyte_add_one hf
  rw [hasEmitted_unfiltering hf, State.emitsNext]
  by_cases he : s.pos.lbyte.toNat + 1 = s.geo.rb
  · have inRow : q = s.pos.pass.toNat →
        s.run.completingByte (lx * channels s.run.ct + s.run.sourceChannel ch.val) < s.geo.rb := by
      rintro rfl
      exact hd.completingByte_lt_rb hl hc
    rw [hasEmitted_rowComplete (if_pos he)]
    change q < s.pos.pass.toNat ∨ (q = s.pos.pass.toNat ∧ (ly < s.pos.lrow.toNat ∨ ly = s.pos.lrow.toNat)) ↔ _
    omega
  · rw [hasEmitted_unfiltering (if_neg he)]
    change q < s.pos.pass.toNat ∨ (q = s.pos.pass.toNat ∧ (ly < s.pos.lrow.toNat ∨ (ly = s.pos.lrow.toNat ∧
      s.run.completingByte (lx * channels s.run.ct + s.run.sourceChannel ch.val) < (s.pos.lbyte + 1).toNat))) ↔ _
    omega

/-- What is emitted next has not been. -/
theorem not_hasEmitted_of_emitsNext (hf : s.fsm = .unfilteringRow) {q lx ly ch : Nat} (h : s.emitsNext q lx ly ch) :
    ¬ s.hasEmitted q lx ly ch := by
  obtain ⟨hq, hly, hi⟩ := h
  rw [hasEmitted_unfiltering hf]
  omega

end

end Sys2Proof.Machine
end

section
/-! SUPPORT. Every step keeps State.RasterTrue, and what it means for a channel that is written and for a raster that is done
(`41_adam7.md` R166, R169). -/

namespace Sys2Proof.Machine

/-! ## The invariant carried over a move -/

section
variable {s t : State}

/-- The raster is being written or is complete: OUT is known. -/
def State.rasterKnown (s : State) : Prop :=
  s.busy = true ∨ s.fsm = .done

theorem not_rasterKnown_of_idle (h : s.fsm = .idle) : ¬ s.rasterKnown := by
  simp [State.rasterKnown, State.busy, h]

theorem not_rasterKnown_of_error (h : s.fsm = .error) : ¬ s.rasterKnown := by
  simp [State.rasterKnown, State.busy, h]

/-- Before anything is emitted OUT lists nothing. -/
theorem rasterTrue_of_out_nil (out : t.out = [])
    (emitted : t.rasterKnown → ∀ q lx ly pix ch, LocalOf t.run q lx ly pix → ¬ t.hasEmitted q lx ly ch) : t.RasterTrue where
  inside c hc := by simp [out] at hc
  exact hk q lx ly pix hl ch _ := by
    rw [out]
    exact iff_of_false Bool.false_ne_true (emitted hk q lx ly pix ch hl)

/-- A move that leaves OUT and emits nothing. -/
theorem State.RasterTrue.of_same_out (hr : s.RasterTrue) (out : t.out = s.out) (run : t.run = s.run)
    (known : t.rasterKnown → s.rasterKnown)
    (emitted : ∀ q lx ly pix ch, LocalOf s.run q lx ly pix → (t.hasEmitted q lx ly ch ↔ s.hasEmitted q lx ly ch)) :
    t.RasterTrue where
  inside := by
    rw [out, State.pixelCount, run]
    exact hr.inside
  exact hk q lx ly pix hl ch hc := by
    rw [run] at hl hc
    rw [out, emitted q lx ly pix ch hl]
    exact hr.exact (known hk) q lx ly pix hl ch hc

/-- What the invariant speaks of is the same in both states. -/
structure SameWalk (s t : State) : Prop where
  fsm : t.fsm = s.fsm
  run : t.run = s.run
  pos : t.pos = s.pos
  out : t.out = s.out

theorem State.RasterTrue.of_sameWalk (hr : s.RasterTrue) (h : SameWalk s t) : t.RasterTrue := by
  refine hr.of_same_out h.out h.run (fun hk => ?_) fun q lx ly pix ch _ => ?_
  · unfold State.rasterKnown State.busy at hk ⊢
    rwa [h.fsm] at hk
  · unfold State.hasEmitted
    rw [h.fsm, h.run, h.pos]

/-! ## The engine -/

theorem State.Decoding.rasterTrue_afterByte (hd : s.Decoding) (hr : s.RasterTrue) (hf : s.fsm = .unfilteringRow)
    {out : List (Nat × Half)} (ho : s.outAfterByte = some out) : (s.afterByte out).RasterTrue where
  inside c hc := by
    have listed : (cellGet out c.1).isSome = true := isSome_cellGet_iff.2 ⟨c, hc, rfl⟩
    rcases (isSome_assemble ho).1 listed with h | h
    · obtain ⟨d, hd, he⟩ := isSome_cellGet_iff.1 h
      exact he ▸ hr.inside d hd
    · obtain ⟨channel, x, hx, hp, -⟩ := (hd.writesSlot_iff ho).1 h
      exact ⟨hp ▸ emitted_pix_lt hx, channel⟩
  exact _ q lx ly pix hl ch hc := by
    have before := hr.exact (.inl (busy_of_unfiltering hf)) q lx ly pix hl ch hc
    rw [hd.hasEmitted_afterByte hf out hl hc, ← before, ← hd.writesSlot_iff_emitsNext ho hl hc]
    exact isSome_assemble ho

/-- RowComplete counts the row as emitted before and after. -/
theorem State.Decoding.hasEmitted_completeRow (hd : s.Decoding) (hf : s.fsm = .rowComplete) {q lx ly pix : Nat}
    (hl : LocalOf s.run q lx ly pix) (ch : Nat) : s.completeRow.hasEmitted q lx ly ch ↔ s.hasEmitted q lx ly ch := by
  have lrow := hd.lrow_add_one (by simp [hf])
  rw [hasEmitted_rowComplete hf]
  by_cases more : s.pos.lrow.toNat + 1 < s.geo.prows.toNat
  · rw [hasEmitted_awaiting (if_pos more)]
    change q < s.pos.pass.toNat ∨ (q = s.pos.pass.toNat ∧ ly < (s.pos.lrow + 1).toNat) ↔ _
    omega
  · have inPass : q = s.pos.pass.toNat → ly < s.geo.prows.toNat := by
      rintro rfl
      exact hd.prows_eq ▸ hl.row
    rw [hasEmitted_passComplete (if_neg more)]
    change q < s.pos.pass.toNat ∨ q = s.pos.pass.toNat ↔ _
    omega

/-- A pass with a local position lies at or before the current pass, or from the next one on. -/
theorem LocalOf.pass_le_of_last {q lx ly pix : Nat} (hl : LocalOf s.run q lx ly pix)
    (hn : s.run.il = 0 ∨ nextPass s.pos.pass.toNat s.run.w.toNat s.run.h.toNat = none) : q ≤ s.pos.pass.toNat := by
  have pass := hl.pass
  rcases hn with h0 | hn
  · rw [h0, imagePasses_of_plain, List.mem_singleton] at pass
    omega
  · by_contra later
    exact nomatch (nextPass_eq_none_iff.1 hn q (by omega) (imagePasses_le pass)).symm.trans hl.nonEmpty

theorem LocalOf.lt_next_iff {q lx ly pix n : Nat} (hl : LocalOf s.run q lx ly pix)
    (hn : nextPass s.pos.pass.toNat s.run.w.toNat s.run.h.toNat = some n) : q < n ↔ q ≤ s.pos.pass.toNat := by
  obtain ⟨hp, -, -, between⟩ := nextPass_eq_some_iff.1 hn
  constructor
  · intro hq
    by_contra later
    exact nomatch (between q (by omega) hq).symm.trans hl.nonEmpty
  · omega

theorem WalkMove.rasterTrue (hm : WalkMove s t) (hs : s.Sound) (hr : s.RasterTrue) : t.RasterTrue := by
  cases hm with
  | rest => exact hr
  | badSelector => exact rasterTrue_of_out_nil rfl fun hk => absurd hk (not_rasterKnown_of_error rfl)
  | badIndex => exact rasterTrue_of_out_nil rfl fun hk => absurd hk (not_rasterKnown_of_error rfl)
  | dataByte hf out ho => exact (hs.decoding (busy_of_unfiltering hf)).rasterTrue_afterByte hr hf ho
  | selector hf =>
    refine hr.of_same_out rfl rfl (fun _ => .inl (busy_of_awaiting hf)) fun q lx ly pix ch _ => ?_
    rw [hasEmitted_awaiting hf, hasEmitted_unfiltering rfl]
    change q < s.pos.pass.toNat ∨ (q = s.pos.pass.toNat ∧ (ly < s.pos.lrow.toNat ∨ (ly = s.pos.lrow.toNat ∧ _ < 0))) ↔ _
    omega
  | row hf =>
    have hb := busy_of_rowComplete hf
    exact hr.of_same_out rfl rfl (fun _ => .inl hb) fun q lx ly pix ch hl => (hs.decoding hb).hasEmitted_completeRow hf hl ch
  | nextPass hf hi n hn =>
    have hb := busy_of_passComplete hf
    refine hr.of_same_out rfl rfl (fun _ => .inl hb) fun q lx ly pix ch hl => ?_
    have pass : (BitVec.ofNat 3 n).toNat = n := ofNat_three_toNat (nextPass_eq_some_iff.1 hn).2.1
    rw [hasEmitted_passComplete hf, hasEmitted_awaiting rfl, ← Nat.le_iff_lt_or_eq, ← hl.lt_next_iff hn]
    change q < (BitVec.ofNat 3 n).toNat ∨ (_ ∧ ly < 0) ↔ _
    rw [pass]
    omega
  | lastPass hf hn =>
    have hb := busy_of_passComplete hf
    refine hr.of_same_out rfl rfl (fun _ => .inl hb) fun q lx ly pix ch hl => ?_
    rw [hasEmitted_passComplete hf, ← Nat.le_iff_lt_or_eq]
    exact iff_of_true (hasEmitted_done rfl q lx ly ch) (hl.pass_le_of_last hn)

/-! ## The host and reset -/

theorem hostAccess_sameWalk (s : State) {a : HostAction} (ha : a.command? = none) : SameWalk s (s.hostAccess a) := by
  rcases access_cases s ha with hi | hi | ⟨v, hv⟩
  · rw [hostAccess_idleWrite hi]
    exact ⟨rfl, rfl, rfl, rfl⟩
  · obtain ⟨w, he, hw⟩ := hostAccess_inputWrite hi
    rw [he, State.unlessBusy]
    split
    · exact ⟨rfl, rfl, rfl, rfl⟩
    · rw [hw]
      exact ⟨rfl, rfl, rfl, rfl⟩
  · rw [hostAccess_read hv]
    exact ⟨rfl, rfl, rfl, rfl⟩

/-- A walk that begins has emitted nothing: no local position lies before its first pass. -/
theorem rasterTrue_beginWalk (accepted : s.cfg.startError s.caps = none) (latched : s.run = s.cfg.latched) (out : s.out = []) :
    s.beginWalk.RasterTrue := by
  obtain ⟨hw, hh⟩ := nonempty_of_latched accepted latched
  refine rasterTrue_of_out_nil out fun _ q lx ly pix ch hl => ?_
  have first : firstPass s.run.il s.run.w.toNat s.run.h.toNat ≤ q := firstPass_le hw hh hl.pass
  have pass : (BitVec.ofNat 3 (firstPass s.run.il s.run.w.toNat s.run.h.toNat)).toNat = _ :=
    ofNat_three_toNat (imagePasses_le (firstPass_mem s.run.il hw hh))
  rw [hasEmitted_awaiting rfl]
  change ¬ (q < (BitVec.ofNat 3 _).toNat ∨ (_ ∧ ly < 0))
  omega

theorem execStart_rasterTrue (hr : s.RasterTrue) (h : execStart s = .next t) : t.RasterTrue := by
  rcases execStart_eq_next h with ⟨-, rfl⟩ | ⟨-, e, -, rfl⟩ | ⟨-, accepted, rfl⟩
  · exact hr.of_sameWalk ⟨rfl, rfl, rfl, rfl⟩
  · exact rasterTrue_of_out_nil rfl fun hk => absurd hk (not_rasterKnown_of_error rfl)
  · exact rasterTrue_beginWalk (s := (s.withResult .accepted).dropPreviousResult.latchRun) accepted rfl rfl

theorem execRelease_rasterTrue (hr : s.RasterTrue) (h : execRelease s = .next t) : t.RasterTrue := by
  rcases execRelease_eq_next h with ⟨-, rfl⟩ | ⟨-, rfl⟩
  · exact hr.of_sameWalk ⟨rfl, rfl, rfl, rfl⟩
  · exact rasterTrue_of_out_nil rfl fun hk => absurd hk (not_rasterKnown_of_idle rfl)

theorem convertRaster_sameWalk {adapter : Option ((Fin 4 → Half) → Rgba)} {format : Bool}
    (h : convertRaster adapter format s = .next t) : SameWalk s t := by
  obtain ⟨-, adapt, -, rfl⟩ := convertRaster_eq_next h
  exact ⟨rfl, rfl, rfl, rfl⟩

theorem exec_command_rasterTrue {i : Instr} (hi : i.format = .command) (hr : s.RasterTrue) (h : exec i s = .next t) :
    t.RasterTrue := by
  rcases exec_command hi s with ⟨-, he⟩ | ⟨-, he⟩ | ⟨-, he⟩ | ⟨-, he⟩ | ⟨-, he⟩ <;> rw [he] at h
  · cases h
    exact hr.of_sameWalk ⟨rfl, rfl, rfl, rfl⟩
  · exact execStart_rasterTrue hr h
  · rcases execConvertRgba8_eq_next h with ⟨-, rfl⟩ | ⟨-, -, rfl⟩ | ⟨-, -, hc⟩
    · exact hr.of_sameWalk ⟨rfl, rfl, rfl, rfl⟩
    · exact hr.of_sameWalk ⟨rfl, rfl, rfl, rfl⟩
    · exact hr.of_sameWalk (convertRaster_sameWalk hc)
  · rcases execConvertRgba16_eq_next h with ⟨-, rfl⟩ | ⟨-, -, rfl⟩ | ⟨-, -, hc⟩
    · exact hr.of_sameWalk ⟨rfl, rfl, rfl, rfl⟩
    · exact hr.of_sameWalk ⟨rfl, rfl, rfl, rfl⟩
    · exact hr.of_sameWalk (convertRaster_sameWalk hc)
  · exact execRelease_rasterTrue hr h

theorem HostMove.rasterTrue {a : HostAction} (hm : HostMove a s t) (hr : s.RasterTrue) : t.RasterTrue := by
  cases hm with
  | command i _ _ _ hf _ h => exact exec_command_rasterTrue hf hr h
  | undefined => exact hr.of_sameWalk ⟨rfl, rfl, rfl, rfl⟩
  | access ha => exact hr.of_sameWalk (hostAccess_sameWalk s ha)

/-! ## A channel that is written -/

/-- A slot of the raster is a channel of a local position. -/
theorem exists_localOf_of_listed (hr : s.RasterTrue) {a : Nat} (ha : (cellGet s.out a).isSome = true) :
    ∃ q lx ly, LocalOf s.run q lx ly (a / 4) ∧ a % 4 < s.run.kind.channelCount := by
  obtain ⟨c, hc, rfl⟩ := isSome_cellGet_iff.1 ha
  obtain ⟨hp, hch⟩ := hr.inside c hc
  obtain ⟨q, lx, ly, hl⟩ := exists_localOf hp
  exact ⟨q, lx, ly, hl, hch⟩

/-- A data byte writes no slot that is listed: what it emits has not been emitted. -/
theorem State.Decoding.not_writesSlot_of_listed (hd : s.Decoding) (hr : s.RasterTrue) (hf : s.fsm = .unfilteringRow)
    {out : List (Nat × Half)} (ho : s.outAfterByte = some out) {a : Nat} (ha : (cellGet s.out a).isSome = true) :
    ¬ WritesSlot s.byteRule s.byteSamples a := by
  obtain ⟨q, lx, ly, hl, hc⟩ := exists_localOf_of_listed hr ha
  have slot : outSlot (a / 4) ⟨a % 4, Nat.mod_lt a (by decide)⟩ = a := outSlot_eq_iff.2 ⟨rfl, rfl⟩
  rw [← slot] at ha ⊢
  rw [hd.writesSlot_iff_emitsNext ho hl hc]
  have emitted := (hr.exact (.inl (busy_of_unfiltering hf)) q lx ly _ hl _ hc).1 ha
  exact fun next => not_hasEmitted_of_emitsNext hf next emitted

/-- A move inside BUSY that raises nothing keeps every listed slot. -/
theorem WalkMove.keeps_listed (hm : WalkMove s t) (hd : s.Decoding) (hr : s.RasterTrue) (hk : t.rasterKnown) {a : Nat} {v : Half}
    (ha : cellGet s.out a = some v) : cellGet t.out a = some v := by
  cases hm with
  | rest | selector | row | nextPass | lastPass => exact ha
  | badSelector => exact absurd hk (not_rasterKnown_of_error rfl)
  | badIndex => exact absurd hk (not_rasterKnown_of_error rfl)
  | dataByte hf out ho =>
    have unwritten := hd.not_writesSlot_of_listed hr hf ho (Option.isSome_of_mem ha)
    exact (cellGet_assemble_unwritten ho unwritten).trans ha

end

end Sys2Proof.Machine
end

section
/-! SUPPORT. The statements on the raster settled. -/

namespace Sys2Proof.Machine

theorem State.RasterTrue.beginStep {s : State} (hr : s.RasterTrue) : s.beginStep.RasterTrue :=
  hr.of_sameWalk ⟨rfl, rfl, rfl, rfl⟩

/-- Settles O57, by what one step can do. -/
theorem everyStepKeepsTheRasterTrue : Obligations.EveryStepKeepsTheRasterTrue := by
  intro s t hs hr h
  rcases step_eq_next h with ⟨he, -⟩ | ⟨a, -, hm⟩ | ⟨-, rfl⟩
  · exact (hs.walkMove he h).rasterTrue hs.beginStep hr.beginStep
  · exact hm.rasterTrue hr.beginStep
  · exact rasterTrue_of_out_nil rfl fun hk => absurd hk (not_rasterKnown_of_idle rfl)

/-- Settles O58: the engine alone writes OUT, and a data byte emits what has not been emitted. -/
theorem noChannelIsWrittenTwice : Obligations.NoChannelIsWrittenTwice := by
  intro s t hs hr hb h hk a v ha
  rcases step_eq_next h with ⟨he, -⟩ | ⟨action, -, hm⟩ | ⟨-, rfl⟩
  · exact (hs.walkMove he h).keeps_listed (hs.beginStep.decoding hb) hr.beginStep hk ha
  · rw [hm.frame_of_busy hb]
    exact ha
  · exact absurd hk (not_rasterKnown_of_idle rfl)

/-- Settles O59: every raster element has its local position, and at Done all of them are emitted. -/
theorem doneRasterIsComplete : Obligations.DoneRasterIsComplete := by
  intro s hr hf pix ch
  constructor
  · intro listed
    obtain ⟨c, hc, he⟩ := isSome_cellGet_iff.1 listed
    have inside := hr.inside c hc
    rwa [he, outSlot_div, outSlot_mod] at inside
  · rintro ⟨hp, hc⟩
    obtain ⟨q, lx, ly, hl⟩ := exists_localOf hp
    exact (hr.exact (.inr hf) q lx ly pix hl ch hc).2 (hasEmitted_done hf q lx ly ch)

end Sys2Proof.Machine
end

section
/-! SUPPORT. The bit unpacker (`42_unpack.md`): the samples of a byte by depth, where a sample is placed, and which of the
samples of a row are. -/

namespace Sys2Proof.Machine

/-! ## The samples of a byte, by depth -/

/-- R191 by division: shift the lower groups out, keep the lowest `bd` bits. -/
theorem subByteSample_eq_div_mod (bd : Nat) (byte : Byte) (k : Nat) :
    subByteSample bd byte k = byte.toNat / 2 ^ (8 - bd * (k + 1)) % 2 ^ bd := by
  rw [subByteSample, Nat.and_two_pow_sub_one_eq_mod, Nat.shiftRight_eq_div_pow]

theorem subByteSample_le (bd : Nat) (byte : Byte) (k : Nat) : subByteSample bd byte k ≤ byte.toNat := by
  rw [subByteSample_eq_div_mod]
  exact (Nat.mod_le ..).trans (Nat.div_le_self ..)

section
variable {s : State} {i : Nat}

theorem rowSamples_of_lt_eight (h : s.run.bd.toNat < 8) :
    s.rowSamples i = (List.range (8 / s.run.bd.toNat)).map fun k =>
      (i * (8 / s.run.bd.toNat) + k, subByteSample s.run.bd.toNat (s.curByte i) k) :=
  if_pos h

theorem length_rowSamples_of_lt_eight (h : s.run.bd.toNat < 8) : (s.rowSamples i).length = 8 / s.run.bd.toNat := by
  rw [rowSamples_of_lt_eight h, List.length_map, List.length_range]

theorem getElem?_rowSamples_of_lt_eight (h : s.run.bd.toNat < 8) {k : Nat} (hk : k < 8 / s.run.bd.toNat) :
    (s.rowSamples i)[k]? =
      some (i * (8 / s.run.bd.toNat) + k, subByteSample s.run.bd.toNat (s.curByte i) k) := by
  rw [rowSamples_of_lt_eight h, List.getElem?_map, List.getElem?_range hk, Option.map_some]

theorem rowSamples_of_eight (h : s.run.bd = 8) : s.rowSamples i = [(i, (s.curByte i).toNat)] := by
  simp [State.rowSamples, h]

theorem rowSamples_even (h : s.run.bd = 16) (n : Nat) : s.rowSamples (2 * n) = [] := by
  simp [State.rowSamples, h]

theorem rowSamples_odd (h : s.run.bd = 16) (n : Nat) :
    s.rowSamples (2 * n + 1) = [(n, (s.curByte (2 * n)).toNat * 256 + (s.curByte (2 * n + 1)).toNat)] := by
  have half : (2 * n + 1) / 2 = n := by omega
  simp [State.rowSamples, h, half]

/-- A sample has 16 bits at most, so the demultiplexer gets it whole. -/
theorem rowSamples_value_lt {c : Nat × Nat} (hc : c ∈ s.rowSamples i) : c.2 < 2 ^ 16 := by
  have low := (s.curByte i).isLt
  have high := (s.curByte (i - 1)).isLt
  unfold State.rowSamples at hc
  simp only at hc
  split_ifs at hc
  · obtain ⟨k, -, rfl⟩ := List.mem_map.1 hc
    have := subByteSample_le s.run.bd.toNat (s.curByte i) k
    omega
  · obtain rfl := List.mem_singleton.1 hc
    omega
  · obtain rfl := List.mem_singleton.1 hc
    omega
  · cases hc

end

/-! ## Where a sample is placed -/

/-- A sample as its element, its channel and its value, over the natural numbers. -/
def Sample.toNats (x : Sample) : Nat × Nat × Nat :=
  (x.pix, x.ch.val, x.v.toNat)

/-- R195 over the natural numbers: neither the channel nor the value is cut. -/
theorem map_toNats_placeSample {s : State} (h : legalFormat s.run.ct s.run.bd = true) {i : Nat} {c : Nat × Nat}
    (hc : c ∈ s.rowSamples i) :
    (s.placeSample c.1 c.2).map Sample.toNats =
      let fx := finalX s.geo.sx s.geo.dx (c.1 / channels s.run.ct)
      let fy := finalY s.geo.sy s.geo.dy s.pos.lrow.toNat
      if fx ≥ s.run.w.toNat ∨ fy ≥ s.run.h.toNat then none
      else some (pixelIndex s.run.w.toNat fx fy, c.1 % channels s.run.ct, c.2) := by
  obtain ⟨positive, four⟩ := channels_of_legal h
  have channel : c.1 % channels s.run.ct % 4 = c.1 % channels s.run.ct :=
    Nat.mod_eq_of_lt (Nat.lt_of_lt_of_le (Nat.mod_lt _ positive) four)
  have value : c.2 % 2 ^ 16 = c.2 := Nat.mod_eq_of_lt (rowSamples_value_lt hc)
  unfold State.placeSample
  simp only [ge_iff_le, ← not_lt, ← not_and_or, ite_not]
  split
  · simp only [Option.map_some, Sample.toNats, Fin.ofNat, BitVec.toNat_ofNat, channel, value]
  · rfl

/-! ## The samples of a row in a decode in progress -/

/-- Of a byte of the row, every sample is one of the row's `n`, but at the last byte of a depth below 8. -/
theorem lt_of_completingByte {r : RunRegs} (hb : r.bd.toNat ∈ [1, 2, 4, 8, 16]) {index n : Nat}
    (hrow : r.completingByte index < cdiv (n * r.bd.toNat) 8)
    (hwhole : 8 ≤ r.bd.toNat ∨ r.completingByte index + 1 < cdiv (n * r.bd.toNat) 8) : index < n := by
  rw [lt_cdiv_iff _ _ _ (by decide)] at hrow hwhole
  unfold RunRegs.completingByte at hrow hwhole
  generalize r.bd.toNat = bd at *
  fin_cases hb <;> simp at hrow hwhole <;> omega

/-- The first sample of a byte of the row is one of the row's `n`. -/
theorem first_sample_lt {bd : Nat} (hb : bd ∈ [1, 2, 4, 8, 16]) (low : bd < 8) {i n : Nat} (hi : i < cdiv (n * bd) 8) :
    i * (8 / bd) < n := by
  rw [lt_cdiv_iff _ _ _ (by decide)] at hi
  fin_cases hb <;> simp at low ⊢ <;> omega

section
variable {s : State} {i : Nat}

/-- R155 by samples: a row holds PCOLS × channels of them. -/
theorem State.Decoding.rb_eq_cdiv_samples (hd : s.Decoding) :
    s.geo.rb = cdiv (passCols s.pos.pass.toNat s.run.w.toNat * channels s.run.ct * s.run.bd.toNat) 8 := by
  have pbits : s.run.pbits = channels s.run.ct * s.run.bd.toNat := hd.latched ▸ rfl
  rw [hd.rb_eq, rowBytes, pbits, Nat.mul_assoc]

/-- In a row of the pass a sample is placed exactly if it is one of the row's (R197 with `41_adam7.md` R159). -/
theorem State.Decoding.isSome_placeSample_iff (hd : s.Decoding) (hf : s.fsm ≠ .passComplete) {index value : Nat} :
    (s.placeSample index value).isSome = true ↔ index < passCols s.pos.pass.toNat s.run.w.toNat * channels s.run.ct := by
  have row := hd.row hf
  rw [hd.prows_eq, lt_passRows_iff] at row
  rw [← Nat.div_lt_iff_lt_mul hd.channels_bounds.1, lt_passCols_iff, Option.isSome_iff_exists]
  simp only [placeSample_eq_some_iff, exists_and_left, exists_eq, and_true, hd.geometry]
  exact and_iff_left row

/-- R199, nothing discarded. -/
theorem State.Decoding.length_emitted (hd : s.Decoding) (hf : s.fsm ≠ .passComplete) (hi : i < s.geo.rb)
    (hwhole : 8 ≤ s.run.bd.toNat ∨ i + 1 < s.geo.rb) : (s.emitted i).length = (s.rowSamples i).length := by
  rw [hd.rb_eq_cdiv_samples] at hi hwhole
  refine List.filterMap_length_eq_length.2 fun c hc => (hd.isSome_placeSample_iff hf).2 ?_
  obtain rfl := (mem_rowSamples_iff hd.depth).1 ⟨c.2, hc⟩
  exact lt_of_completingByte hd.depth hi hwhole

/-- R199, the first sample of a byte remains. -/
theorem State.Decoding.emitted_length_pos (hd : s.Decoding) (hf : s.fsm ≠ .passComplete) (hi : i < s.geo.rb)
    (low : s.run.bd.toNat < 8) : 0 < (s.emitted i).length := by
  rw [hd.rb_eq_cdiv_samples] at hi
  have positive : 0 < s.run.bd.toNat := by
    have depth := hd.depth
    simp at depth
    omega
  have first := getElem?_rowSamples_of_lt_eight (i := i) low (Nat.div_pos low.le positive)
  obtain ⟨x, hx⟩ := Option.isSome_iff_exists.1 ((hd.isSome_placeSample_iff hf).2 (first_sample_lt hd.depth low hi))
  exact List.length_pos_of_mem (List.mem_filterMap.2 ⟨_, List.mem_of_getElem? first, hx⟩)

end

end Sys2Proof.Machine
end

section
/-! SUPPORT. The statements of `42_unpack.md` settled. -/

namespace Sys2Proof.Machine

/-- Settles O26, depth by depth. -/
theorem rowBytesCompleteTheirSamples : Obligations.RowBytesCompleteTheirSamples := by
  refine fun s i => ⟨fun hb => ?_, rowSamples_of_eight, fun h => ⟨rowSamples_even h i, rowSamples_odd h i⟩⟩
  have low : s.run.bd.toNat < 8 := by simp at hb; omega
  refine ⟨length_rowSamples_of_lt_eight low, fun k hk => ?_⟩
  rw [getElem?_rowSamples_of_lt_eight low hk, subByteSample_eq_div_mod]

/-- Settles O27: sample by sample of the row. -/
theorem emittedSamplesLieInTheRaster : Obligations.EmittedSamplesLieInTheRaster := by
  intro s i h place
  change (s.emitted i).map Sample.toNats = _
  rw [State.emitted, List.map_filterMap]
  exact List.filterMap_congr fun c hc => map_toNats_placeSample h hc

/-- Settles O28: what is placed are the samples of the row, which fill its bytes but for the last. -/
theorem onlyRowEndSamplesAreDiscarded : Obligations.OnlyRowEndSamplesAreDiscarded := by
  intro s hs hf i
  have hd := hs.decoding (busy_of_unfiltering hf)
  have inRow : s.fsm ≠ .passComplete := by simp [hf]
  refine ⟨hd.length_emitted inRow (hd.byte hf), fun low => ?_⟩
  have remains := hd.emitted_length_pos inRow (hd.byte hf) low
  rw [length_rowSamples_of_lt_eight low]
  exact Nat.lt_add_of_pos_left remains

/-- Settles O14: a selector before a data byte hands on what the unpacker makes of the row with that byte in it. -/
theorem selectorsHandOnTheirSamples : Obligations.SelectorsHandOnTheirSamples := by
  intro f hf s h
  have filter : f.format = .filter := by
    simp only [List.mem_cons, List.not_mem_nil, or_false] at hf
    rcases hf with rfl | rfl | rfl | rfl | rfl <;> rfl
  rw [exec_filter_recon filter, runFilter_of_unfiltering _ _ h.unfiltering, reconstructByte_of_lt _ h.input h.room]
  exact ⟨_, rfl, rfl, rfl⟩

end Sys2Proof.Machine
end

section
/-! SUPPORT. The colour demultiplexer (`43_color_demux.md`): what a mode makes of the samples handed on, and the palette entry of
an indexed sample. -/

namespace Sys2Proof.Machine

/-! ## The pixel rule of each family of modes -/

theorem exec_scaledGrey {p : Instr × Nat} (h : p ∈ [(.modeGray1, 255), (.modeGray2, 85), (.modeGray4, 17)]) :
    ∃ bd, greyMultiplier bd = p.2 ∧ ∀ s, exec p.1 s = runMode (scaledGrey bd) s := by
  simp only [List.mem_cons, List.not_mem_nil, or_false] at h
  rcases h with rfl | rfl | rfl
  · exact ⟨1, rfl, fun _ => rfl⟩
  · exact ⟨2, rfl, fun _ => rfl⟩
  · exact ⟨4, rfl, fun _ => rfl⟩

theorem exec_wholeGrey {m : Instr} (h : m ∈ [.modeGray8, .modeGray16]) (s : State) : exec m s = runMode wholeGrey s := by
  simp only [List.mem_cons, List.not_mem_nil, or_false] at h
  rcases h with rfl | rfl <;> rfl

theorem exec_wholeChannel {m : Instr} (h : m ∈ [.modeRgb8, .modeRgb16, .modeGa8, .modeGa16, .modeRgba8, .modeRgba16])
    (s : State) : exec m s = runMode wholeChannel s := by
  simp only [List.mem_cons, List.not_mem_nil, or_false] at h
  rcases h with rfl | rfl | rfl | rfl | rfl | rfl <;> rfl

theorem exec_indexed {m : Instr} (h : m ∈ [.modeIdx1, .modeIdx2, .modeIdx4, .modeIdx8]) (s : State) :
    exec m s = runMode indexedPixel s := by
  simp only [List.mem_cons, List.not_mem_nil, or_false] at h
  rcases h with rfl | rfl | rfl | rfl <;> rfl

/-! ## A mode on samples that fit OUT -/

theorem outWrites_eq_foldl (out : List (Nat × Half)) (pix : Nat) (ws : List (Fin 4 × Half)) :
    outWrites out pix ws = ws.foldl (fun o w => cellSet o (outSlot pix w.1) w.2) out := by
  induction ws generalizing out with
  | nil => rfl
  | cons w ws ih => exact ih _

theorem assemble_eq_foldl {rule : Sample → Option (List (Fin 4 × Half))} {writes : Sample → List (Fin 4 × Half)}
    {xs : List Sample} (h : ∀ x ∈ xs, rule x = some (writes x)) (out : List (Nat × Half)) :
    assemble rule xs out =
      some (xs.foldl (fun o x => (writes x).foldl (fun o w => cellSet o (outSlot x.pix w.1) w.2) o) out) := by
  induction xs generalizing out with
  | nil => rfl
  | cons x xs ih =>
    obtain ⟨first, rest⟩ := List.forall_mem_cons.1 h
    simp only [assemble, first, ih rest, List.foldl_cons, outWrites_eq_foldl]

theorem assemble_eq_none {rule : Sample → Option (List (Fin 4 × Half))} {xs : List Sample} {x : Sample} (hx : x ∈ xs)
    (h : rule x = none) (out : List (Nat × Half)) : assemble rule xs out = none := by
  refine Option.eq_none_iff_forall_ne_some.2 fun out' assembled => ?_
  obtain ⟨ws, hws⟩ := rule_of_assemble assembled x hx
  cases h.symm.trans hws

/-- A mode whose rule gives every sample its writes completes with them. -/
theorem runMode_samplesWritten {s : State} {rule : PixelRule} {writes : Sample → List (Fin 4 × Half)} (fit : s.SamplesFit)
    (h : ∀ x ∈ s.samples, rule s x = some (writes x)) :
    ∃ t, runMode rule s = .next t ∧ SamplesWritten writes s t := by
  have assembled := assemble_eq_foldl h s.out
  refine ⟨{ s with out := _, samples := [] }, by rw [runMode_of_fit rule fit, assembled], rfl, fun a ha => ?_, rfl⟩
  refine cellGet_assemble_unwritten assembled ?_
  rintro ⟨x, hx, ws, hws, w, hw, rfl⟩
  obtain rfl := Option.some.inj ((h x hx).symm.trans hws)
  exact ha x hx w hw rfl

/-- One sample without a rule ends the decode, wherever it stands among the samples (`42_unpack.md` R196). -/
theorem runMode_of_none {s : State} {rule : PixelRule} (fit : s.SamplesFit) {x : Sample} (hx : x ∈ s.samples)
    (h : rule s x = none) : runMode rule s = .next (s.raise .paletteIndexError) := by
  rw [runMode_of_fit rule fit, assemble_eq_none hx h]

/-- A mode reads the configuration through its rule alone. -/
theorem runMode_withCfg {s : State} {rule : PixelRule} (fit : s.SamplesFit) {c : CfgRegs}
    (h : rule { s with cfg := c } = rule s) :
    ∃ t, runMode rule s = .next t ∧ runMode rule { s with cfg := c } = .next { t with cfg := c } := by
  rw [runMode_of_fit rule fit, runMode_of_fit (s := { s with cfg := c }) rule fit, h]
  cases assemble (rule s) s.samples s.out with
  | none => exact ⟨_, rfl, rfl⟩
  | some out => exact ⟨_, rfl, rfl⟩

/-! ## An indexed sample -/

/-- What an indexed sample writes: its palette entry, and its alpha in a raster with alpha (R214, R216). -/
def State.paletteWrites (s : State) (x : Sample) : List (Fin 4 × Half) :=
  let e := s.plteEntry x.pix x.v.toNat
  [(0, e.r.setWidth 16), (1, e.g.setWidth 16), (2, e.b.setWidth 16)] ++
    if s.run.kind = .rgba8 then [(3, (s.indexedAlpha x.pix x.v.toNat).setWidth 16)] else []

theorem indexedPixel_of_lt {s : State} {x : Sample} (h : x.v.toNat < s.cfg.plteCount.toNat) :
    indexedPixel s x = some (s.paletteWrites x) := by
  by_cases alpha : s.run.kind = .rgba8
  · simp [indexedPixel, State.paletteWrites, h, alpha]
  · simp [indexedPixel, State.paletteWrites, h, alpha]

theorem indexedPixel_of_le {s : State} {x : Sample} (h : s.cfg.plteCount.toNat ≤ x.v.toNat) : indexedPixel s x = none :=
  if_neg (Nat.not_lt.2 h)

/-- The state with another CFG_TRNS.COUNT. -/
def State.withTrnsCount (s : State) (n : BitVec 9) : State :=
  { s with cfg := { s.cfg with trnsCount := n } }

theorem paletteWrites_withTrnsCount {s : State} {n : BitVec 9} {x : Sample}
    (h : x.v.toNat < n.toNat ↔ x.v.toNat < s.cfg.trnsCount.toNat) :
    (s.withTrnsCount n).paletteWrites x = s.paletteWrites x := by
  have alpha : (s.withTrnsCount n).indexedAlpha x.pix x.v.toNat = s.indexedAlpha x.pix x.v.toNat := if_congr h rfl rfl
  rw [State.paletteWrites, alpha]
  rfl

/-- The pixel rule sees of CFG_TRNS.COUNT only which indices of the palette lie below it. -/
theorem indexedPixel_withTrnsCount {s : State} {n : BitVec 9}
    (h : ∀ v, v < s.cfg.plteCount.toNat → (v < n.toNat ↔ v < s.cfg.trnsCount.toNat)) :
    indexedPixel (s.withTrnsCount n) = indexedPixel s := by
  funext x
  rcases Nat.lt_or_ge x.v.toNat s.cfg.plteCount.toNat with below | beyond
  · rw [indexedPixel_of_lt below, indexedPixel_of_lt (s := s.withTrnsCount n) below, paletteWrites_withTrnsCount (h _ below)]
  · rw [indexedPixel_of_le beyond, indexedPixel_of_le (s := s.withTrnsCount n) beyond]

/-! ## The kind of a format -/

theorem selectKind_channelWidth {ct bd : Byte} (h : legalFormat ct bd = true) (trns : Bool) :
    (selectKind ct bd trns).channelWidth = if bd = 16 then 16 else 8 := by
  have all := forall_legalFormat (test := fun ct bd => decide (∀ trns : Bool,
    (selectKind ct bd trns).channelWidth = if bd = 16 then 16 else 8)) (by decide) h
  exact of_decide_eq_true all trns

theorem selectKind_indexed (bd : Byte) (trns : Bool) : selectKind 3 bd trns = if trns then .rgba8 else .rgb8 := rfl

theorem selectKind_channelCount {ct bd : Byte} (h : legalFormat ct bd = true) (trns : Bool) :
    (selectKind ct bd trns).channelCount = if ct = 3 then (if trns then 4 else 3) else channels ct := by
  split
  next indexed =>
    rw [indexed, selectKind_indexed]
    cases trns <;> rfl
  next other =>
    exact channelCount_of_not_indexed (c := { CfgRegs.zero with colorType := ct, bitDepth := bd, trnsValid := trns }) h other

end Sys2Proof.Machine
end

section
/-! SUPPORT. The statements of `43_color_demux.md` settled. -/

namespace Sys2Proof.Machine

/-- Settles O29: the multipliers 255, 85 and 17 are those of the depths 1, 2 and 4. -/
theorem subByteGreyIsScaledExactly : Obligations.SubByteGreyIsScaledExactly := by
  refine ⟨fun p hp s fit => ?_, by decide⟩
  obtain ⟨bd, multiplier, mode⟩ := exec_scaledGrey hp
  rw [mode, ← multiplier]
  exact runMode_samplesWritten fit fun _ _ => rfl

/-- Settles O30. -/
theorem wholeSamplesAreStoredUnchanged : Obligations.WholeSamplesAreStoredUnchanged := by
  refine ⟨fun m hm s fit => ?_, fun m hm s fit => ?_⟩
  · rw [exec_wholeGrey hm]
    exact runMode_samplesWritten fit fun _ _ => rfl
  · rw [exec_wholeChannel hm]
    exact runMode_samplesWritten fit fun _ _ => rfl

/-- Settles O31. -/
theorem indexedSamplesWriteTheirPaletteEntry : Obligations.IndexedSamplesWriteTheirPaletteEntry := by
  intro m hm s fit below
  rw [exec_indexed hm]
  exact runMode_samplesWritten fit fun x hx => indexedPixel_of_lt (below x hx)

/-- Settles O32. -/
theorem indexBeyondThePaletteRaises : Obligations.IndexBeyondThePaletteRaises := by
  intro m hm s fit ⟨x, hx, beyond⟩
  refine ⟨s.raise .paletteIndexError, ?_, rfl, rfl, rfl, rfl, rfl, rfl, rfl, rfl, rfl, rfl, rfl, rfl, rfl⟩
  rw [exec_indexed hm, runMode_of_none fit hx (indexedPixel_of_le beyond)]

/-- Settles O33: an index below the palette's count is below both transparency counts, and any other reads neither. -/
theorem transparencyBeyondThePaletteIsIgnored : Obligations.TransparencyBeyondThePaletteIsIgnored := by
  intro m hm s fit enough
  simp only [exec_indexed hm]
  exact runMode_withCfg fit
    (indexedPixel_withTrnsCount fun v hv => iff_of_true hv (Nat.lt_of_lt_of_le hv enough))

/-- Settles O34. -/
theorem rasterKindFollowsTheFormat : Obligations.RasterKindFollowsTheFormat :=
  fun _ bd trns legal =>
    ⟨selectKind_channelWidth legal trns, selectKind_channelCount legal trns,
      fun indexed => indexed ▸ selectKind_indexed bd trns⟩

end Sys2Proof.Machine
end

section
/-! SUPPORT. The host commands (`44_commands.md`): what each of them does in each of its cases, the START checks in the terms of
their rules, and what a step leaves of the inputs of a decode. -/

namespace Sys2Proof.Machine

/-! ## The START checks -/

/-- The header checks fail (`60_exceptions.md` R293). -/
theorem CfgRegs.headerOk_eq_false_iff {c : CfgRegs} : c.headerOk = false ↔
    c.width.toNat = 0 ∨ c.height.toNat = 0 ∨ 1 < c.interlace.toNat ∨
      (c.colorType.toNat, c.bitDepth.toNat) ∉ legalPairs := by
  rw [← Bool.not_eq_true, CfgRegs.headerOk_iff]
  simp only [not_and_or, Nat.not_lt, Nat.le_zero, Nat.not_le]

/-- A non-empty pass has rows that CUR and PRIOR do not hold (R296, its last point). -/
theorem CfgRegs.rowsFit_eq_false_iff {c : CfgRegs} {limit : Nat} : c.rowsFit limit = false ↔
    ∃ q ∈ imagePasses c.interlace, passNonEmpty q c.width.toNat c.height.toNat = true ∧
      limit < rowBytes q c.width.toNat (pixelBits c.colorType c.bitDepth) := by
  simp [CfgRegs.rowsFit]

/-- The storage does not hold the image (R296). -/
theorem CfgRegs.fits_eq_false_iff {c : CfgRegs} {caps : Capacity} : c.fits caps = false ↔
    2 ^ 32 - 1 < c.expectedSize ∨ caps.inBytes < c.expectedSize ∨ caps.pixels < c.width.toNat * c.height.toNat ∨
      ∃ q ∈ imagePasses c.interlace, passNonEmpty q c.width.toNat c.height.toNat = true ∧
        caps.rowBytes < rowBytes q c.width.toNat (pixelBits c.colorType c.bitDepth) := by
  rw [← CfgRegs.rowsFit_eq_false_iff]
  simp only [CfgRegs.fits, Bool.and_eq_false_iff, decide_eq_false_iff_not, Nat.not_le, or_assoc]

/-- The checks after the header's, in the order of `44_commands.md` R253. -/
theorem CfgRegs.startError_of_headerOk {c : CfgRegs} (h : c.headerOk = true) (caps : Capacity) :
    c.startError caps =
      if c.colorType = 3 ∧ c.plteValid = false then some .missingPalette
      else if c.colorType = 3 ∧ c.plteValid = true ∧ 2 ^ c.bitDepth.toNat < c.plteCount.toNat then some .invalidPalette
      else if c.fits caps = false then some .capacityError
      else if c.inLen.toNat ≠ c.expectedSize then some .decompressionError
      else none := by
  simp [CfgRegs.startError, h, CfgRegs.indexed, and_assoc]

/-! ## The commands, case by case -/

section
variable {s : State}

theorem execStart_of_busy (hb : s.busy = true) : execStart s = .next (s.withResult .refusedState) :=
  if_pos hb

theorem execStart_of_accepted (hb : s.busy = false) (h : s.cfg.startError s.caps = none) :
    execStart s = .next (s.withResult .accepted).dropPreviousResult.latchRun.beginWalk := by
  simp only [execStart, hb, Bool.false_eq_true, if_false, h]

theorem StartFailed.of_startError {t : State} {e : DecodeError} (hb : s.busy = false) (ht : exec .start s = .next t)
    (h : s.cfg.startError s.caps = some e) : StartFailed s t e.code.toNat := by
  cases ht.symm.trans (execStart_of_startError hb h)
  exact startFailed_raise s e

theorem execRelease_of_busy (hb : s.busy = true) : execRelease s = .next (s.withResult .refusedState) :=
  if_pos hb

theorem execRelease_of_not_busy (hb : s.busy = false) :
    execRelease s = .next { s.dropPreviousResult with fsm := .idle, cmdResult := .accepted } :=
  if_neg (by simp [hb])

theorem execConvertRgba8_of_not_done (hf : s.fsm ≠ .done) : execConvertRgba8 s = .next (s.withResult .refusedState) :=
  if_neg hf

theorem execConvertRgba8_of_deep (hf : s.fsm = .done) (hd : 8 < s.run.bd.toNat) : execConvertRgba8 s = .next s.refuseAdapter := by
  rw [execConvertRgba8, if_pos hf, if_pos hd]

theorem execConvertRgba8_of_shallow (hf : s.fsm = .done) (hd : s.run.bd.toNat ≤ 8) :
    execConvertRgba8 s = convertRaster (adapter8 s.run.kind) false s := by
  rw [execConvertRgba8, if_pos hf, if_neg (Nat.not_lt.2 hd)]

theorem execConvertRgba16_of_not_done (hf : s.fsm ≠ .done) : execConvertRgba16 s = .next (s.withResult .refusedState) :=
  if_neg hf

theorem execConvertRgba16_of_shallow (hf : s.fsm = .done) (hd : s.run.bd.toNat ≤ 8) :
    execConvertRgba16 s = .next s.refuseAdapter := by
  rw [execConvertRgba16, if_pos hf, if_pos hd]

theorem execConvertRgba16_of_deep (hf : s.fsm = .done) (hd : 8 < s.run.bd.toNat) :
    execConvertRgba16 s = convertRaster (adapter16 s.run.kind) true s := by
  rw [execConvertRgba16, if_pos hf, if_neg (Nat.not_le.2 hd)]

end

/-! ## The adapters -/

/-- Adapt8 of R259 to R262, for every 8-bit kind. -/
theorem adapter8_of_width {kind : RasterKind} (h : kind.channelWidth = 8) :
    ∃ adapt, adapter8 kind = some adapt ∧ ∀ o, adapt o =
      if kind = .gray8 then ⟨o 0, o 0, o 0, 255⟩
      else if kind = .ga8 then ⟨o 0, o 0, o 0, o 1⟩
      else if kind = .rgb8 then ⟨o 0, o 1, o 2, 255⟩
      else ⟨o 0, o 1, o 2, o 3⟩ := by
  cases kind
  case gray8 | ga8 | rgb8 | rgba8 => exact ⟨_, rfl, fun _ => rfl⟩
  all_goals exact nomatch h

/-- Adapt16 of R263 to R266, for every 16-bit kind. -/
theorem adapter16_of_width {kind : RasterKind} (h : kind.channelWidth = 16) :
    ∃ adapt, adapter16 kind = some adapt ∧ ∀ o, adapt o =
      if kind = .gray16 then ⟨o 0, o 0, o 0, 65535⟩
      else if kind = .ga16 then ⟨o 0, o 0, o 0, o 1⟩
      else if kind = .rgb16 then ⟨o 0, o 1, o 2, 65535⟩
      else ⟨o 0, o 1, o 2, o 3⟩ := by
  cases kind
  case gray16 | ga16 | rgb16 | rgba16 => exact ⟨_, rfl, fun _ => rfl⟩
  all_goals exact nomatch h

/-- A conversion that is taken lists the adapted elements of the raster and no other. -/
theorem convertRaster_adapts {s : State} {adapter : Option ((Fin 4 → Half) → Rgba)} {adapt : (Fin 4 → Half) → Rgba}
    (ha : adapter = some adapt) (format : Bool) (hp : s.pixelCount ≤ s.caps.pixels) :
    ∃ t, convertRaster adapter format s = .next t ∧
      (∀ pix, pix < s.pixelCount → cellGet t.conv pix = some (adapt (s.outChannel pix))) ∧
      (∀ pix, s.pixelCount ≤ pix → cellGet t.conv pix = none) ∧
      t = { s with conv := t.conv, convFmt := format, convValid := true, cmdResult := .accepted } := by
  subst ha
  refine ⟨_, if_pos hp, fun pix h => ?_, fun pix h => ?_, rfl⟩
  · exact (cellGet_convertedRaster s adapt pix).trans (if_pos h)
  · exact (cellGet_convertedRaster s adapt pix).trans (if_neg (Nat.not_lt.2 h))

/-! ## A command as a step -/

theorem step_command {s : State} {value : Word} {i : Instr} (hn : s.commandNext value) (hd : decodeCommand value = .ok i) :
    step s = exec i s.beginStep := by
  rw [step_host hn, hostStep_command rfl hd]

theorem step_undefinedCommand {s : State} {value : Word} {e : DecodeReject} (hn : s.commandNext value)
    (hd : decodeCommand value = .error e) : step s = .next s.beginStep.undefinedCommand := by
  rw [step_host hn, hostStep_undefined rfl hd]

/-! ## The inputs of a decode (R269) -/

theorem inputWrite_command? {caps : Capacity} {a : HostAction} (h : a.inputWrite caps) : a.command? = none := by
  cases a
  case writeReg offset v => exact command?_writeReg (configRegister_ne_zero h) v
  all_goals rfl

/-- An engine step leaves the inputs and the storage. -/
theorem EngineMove.sameInputs {s t : State} (h : EngineMove s t) : SameInputs s t ∧ t.caps = s.caps := by
  cases h with
  | rest | exhausted | selector | badSelector | row => exact ⟨⟨rfl, rfl, rfl, rfl⟩, rfl⟩
  | dataByte _ _ _ _ _ _ _ s₁ s₂ h₁ h₂ =>
    obtain ⟨-, y, rfl⟩ := reconstructByte_eq_next h₁
    obtain ⟨-, ⟨out, -, rfl⟩ | ⟨-, rfl⟩⟩ := runMode_eq_next h₂ <;> simp [SameInputs]
  | pass => simp [SameInputs]

/-- Inside BUSY a host action leaves the inputs and the storage. -/
theorem HostMove.sameInputs_of_busy {a : HostAction} {s t : State} (h : HostMove a s t) (hb : s.busy = true) :
    SameInputs s t ∧ t.caps = s.caps := by
  rw [h.frame_of_busy hb]
  exact ⟨⟨rfl, rfl, rfl, rfl⟩, rfl⟩

end Sys2Proof.Machine
end

section
/-! SUPPORT. The statements of `44_commands.md` settled. -/

namespace Sys2Proof.Machine

/-- Settles O36: the statement's conditions are the model's checks, the header's first and then the others in turn. -/
theorem startChecksInTheirOrder : Obligations.StartChecksInTheirOrder := by
  intro s hb c w h size header noPalette palette capacity
  obtain ⟨t, ht⟩ := execStart_goes_on s
  have headerOk : ¬ header → c.headerOk = true := fun hh =>
    Bool.eq_true_of_not_eq_false (mt CfgRegs.headerOk_eq_false_iff.1 hh)
  have unfit : capacity ↔ c.fits s.caps = false := CfgRegs.fits_eq_false_iff.symm
  have later (hh : ¬ header) := CfgRegs.startError_of_headerOk (headerOk hh) s.caps
  have last (hh : ¬ header) (hn : ¬ noPalette) (hp : ¬ palette) (hc : ¬ capacity) :
      c.startError s.caps = if c.inLen.toNat ≠ size then some .decompressionError else none := by
    rw [later hh, if_neg hn, if_neg hp, if_neg (mt unfit.2 hc)]
    rfl
  refine ⟨t, ht, fun hh => ?_, fun hh hn => ?_, fun hh hn hp => ?_, fun hh hn hp hc => ?_, fun hh hn hp hc hl => ?_,
    fun hh hn hp hc hl => ?_⟩
  · exact .of_startError hb ht (CfgRegs.startError_of_not_headerOk (CfgRegs.headerOk_eq_false_iff.2 hh) s.caps)
  · exact .of_startError hb ht ((later hh).trans (if_pos hn))
  · exact .of_startError hb ht (by rw [later hh, if_neg hn, if_pos hp])
  · exact .of_startError hb ht (by rw [later hh, if_neg hn, if_neg hp, if_pos (unfit.1 hc)])
  · exact .of_startError hb ht ((last hh hn hp hc).trans (if_pos hl))
  · have accepted : c.startError s.caps = none := (last hh hn hp hc).trans (if_neg (not_not.2 hl))
    cases ht.symm.trans (execStart_of_accepted hb accepted)
    rfl

/-- Settles O39. -/
theorem convertRgba8AdaptsEveryPixel : Obligations.ConvertRgba8AdaptsEveryPixel := by
  intro s hf hd hk hp
  obtain ⟨adapt, ha, he⟩ := adapter8_of_width hk
  simpa only [he, exec, execConvertRgba8_of_shallow hf hd] using convertRaster_adapts ha false hp

/-- Settles O40. -/
theorem convertRgba16AdaptsEveryPixel : Obligations.ConvertRgba16AdaptsEveryPixel := by
  intro s hf hd hk hp
  obtain ⟨adapt, ha, he⟩ := adapter16_of_width hk
  simpa only [he, exec, execConvertRgba16_of_deep hf hd] using convertRaster_adapts ha true hp

/-- Settles O41: in a sound Idle state there is no result to drop. -/
theorem releaseDropsTheResult : Obligations.ReleaseDropsTheResult := by
  refine ⟨decode_encode .release, fun s => ⟨execRelease_of_busy, fun hb => ?_⟩⟩
  refine ⟨_, execRelease_of_not_busy hb, rfl, execRelease_of_not_busy rfl, fun hs hf => ?_⟩
  rw [hs.idle hf, ← hf]

/-- Settles O42. -/
theorem undefinedOpcodeSetsOnlyTheResult : Obligations.UndefinedOpcodeSetsOnlyTheResult :=
  fun _ _ hn hv => step_undefinedCommand hn (decodeCommand_undefined hv)

/-- Settles O43: BUSY drops an input write, and the step is the engine's, or the host's inside BUSY. -/
theorem busyDropsInputWrites : Obligations.BusyDropsInputWrites := by
  refine ⟨fun s a ha hb hi => ?_, fun s offset value ha hne hno => ?_, fun s value i hn _ hd => step_command hn hd,
    fun s t hturn ht hr => ?_⟩
  · obtain ⟨w, hw, -⟩ := hostAccess_inputWrite (s := s.beginStep) hi
    have busy : s.beginStep.busy = true := hb
    rw [step_access ha (inputWrite_command? hi), hw, State.unlessBusy, if_pos busy]
  · exact writesOutsideTheInputsHaveNoEffect.1 s _ ha ⟨hne, hno⟩
  · rcases step_eq_next ht with ⟨-, hm⟩ | ⟨a, ha, hm⟩ | ⟨hreset, -⟩
    · exact hm.sameInputs
    · refine hm.sameInputs_of_busy (hturn.resolve_right fun he => ?_)
      simp [State.engineNext, ha] at he
    · exact absurd hreset hr

/-- Settles O35. -/
theorem nopIsAcceptedInEveryState : Obligations.NopIsAcceptedInEveryState :=
  ⟨decode_encode .nop, fun _ => rfl⟩

/-- Settles O37. -/
theorem acceptedStartLatchesAndBegins : Obligations.AcceptedStartLatchesAndBegins :=
  fun _ hb accepted => ⟨_, execStart_of_accepted hb accepted, rfl, rfl, rfl, rfl, rfl, rfl, rfl, rfl, rfl, rfl, rfl, rfl⟩

/-- Settles O38, refusal by refusal. -/
theorem refusedCommandsHaveNoOtherEffect : Obligations.RefusedCommandsHaveNoOtherEffect :=
  fun _ => ⟨execStart_of_busy, execRelease_of_busy, execConvertRgba8_of_not_done, execConvertRgba16_of_not_done,
    execConvertRgba8_of_deep, execConvertRgba16_of_shallow⟩

end Sys2Proof.Machine
end

section
/-! SUPPORT. The decode errors (`60_exceptions.md`): what a host action does to FSM and ERR_CODE, the three ways
into Error, and what an entry leaves. -/

namespace Sys2Proof.Machine

/-! ## What a host action does to FSM and ERR_CODE -/

section
variable {s t : State}

theorem convertRaster_keeps_fsm {adapter : Option ((Fin 4 → Half) → Rgba)} {format : Bool}
    (h : convertRaster adapter format s = .next t) : t.fsm = s.fsm ∧ t.errCode = s.errCode := by
  obtain ⟨-, adapt, -, rfl⟩ := convertRaster_eq_next h
  exact ⟨rfl, rfl⟩

/-- A command other than START and RELEASE leaves FSM and ERR_CODE. -/
theorem exec_command_keeps_fsm {i : Instr} (hi : i.format = .command) (start : i ≠ .start) (release : i ≠ .release)
    (h : exec i s = .next t) : t.fsm = s.fsm ∧ t.errCode = s.errCode := by
  rcases exec_command hi s with ⟨-, he⟩ | ⟨rfl, -⟩ | ⟨-, he⟩ | ⟨-, he⟩ | ⟨rfl, -⟩
  · cases he.symm.trans h
    exact ⟨rfl, rfl⟩
  · exact absurd rfl start
  · rcases execConvertRgba8_eq_next (he.symm.trans h) with ⟨-, rfl⟩ | ⟨-, -, rfl⟩ | ⟨-, -, hc⟩
    · exact ⟨rfl, rfl⟩
    · exact ⟨rfl, rfl⟩
    · exact convertRaster_keeps_fsm hc
  · rcases execConvertRgba16_eq_next (he.symm.trans h) with ⟨-, rfl⟩ | ⟨-, -, rfl⟩ | ⟨-, -, hc⟩
    · exact ⟨rfl, rfl⟩
    · exact ⟨rfl, rfl⟩
    · exact convertRaster_keeps_fsm hc
  · exact absurd rfl release

theorem hostAccess_errCode {a : HostAction} (ha : a.command? = none) : (s.hostAccess a).errCode = s.errCode := by
  rcases hostAccess_status s ha with ⟨-, flags⟩ | ⟨-, -, he⟩
  · exact flags.errCode
  · rw [he]

/-- A host action leaves FSM and ERR_CODE, unless it is START or RELEASE. -/
theorem HostMove.keeps_fsm {a : HostAction} (hm : HostMove a s t) :
    (t.fsm = s.fsm ∧ t.errCode = s.errCode) ∨
    ∃ value, a.command? = some value ∧
      ((decodeCommand value = .ok .start ∧ execStart s = .next t) ∨
       (decodeCommand value = .ok .release ∧ execRelease s = .next t)) := by
  cases hm with
  | command i value ha hd hf _ h =>
    by_cases start : i = .start
    · subst start
      exact .inr ⟨value, ha, .inl ⟨hd, h⟩⟩
    by_cases release : i = .release
    · subst release
      exact .inr ⟨value, ha, .inr ⟨hd, h⟩⟩
    exact .inl (exec_command_keeps_fsm hf start release h)
  | undefined => exact .inl ⟨rfl, rfl⟩
  | access ha => exact .inl ⟨(hostAccess_sameWalk s ha).fsm, hostAccess_errCode ha⟩

end

/-! ## The three ways into Error -/

/-- The entries into Error (`60_exceptions.md` R290): the step of `s` that raises, and what it leaves. -/
inductive ErrorEntry (s : State) : State → Prop
  /-- A START that fails one of its checks (R293 to R297). -/
  | start (value : Word) (next : s.commandNext value) (command : decodeCommand value = .ok .start) (notBusy : s.busy = false)
      (e : DecodeError) (failed : s.cfg.startError s.caps = some e) :
      ErrorEntry s ((s.beginStep.withResult .accepted).dropPreviousResult.raise e)
  /-- An illegal selector (`41_adam7.md` R162). -/
  | selector (turn : s.engineNext) (awaiting : s.fsm = .awaitingRow)
      (illegal : 4 < (s.beginStep.inByte s.pos.inPtr.toNat).toNat) : ErrorEntry s s.beginStep.rejectSelector
  /-- A sample that names no palette entry (`43_color_demux.md` R215). -/
  | index (turn : s.engineNext) (unfiltering : s.fsm = .unfilteringRow) :
      ErrorEntry s (s.beginStep.raise .paletteIndexError)

section
variable {s t : State}

/-- A sound step of the walk raises at a selector or at a data byte. -/
theorem WalkMove.raises (hm : WalkMove s t) (hf : s.fsm ≠ .error) (he : t.fsm = .error) :
    (s.fsm = .awaitingRow ∧ t = s.rejectSelector) ∨ (s.fsm = .unfilteringRow ∧ t = s.raise .paletteIndexError) := by
  cases hm with
  | rest => exact absurd he hf
  | selector => cases he
  | badSelector h => exact .inl ⟨h, rfl⟩
  | dataByte _ out => exact absurd he (ne_of_busy (busy_afterByte s out)).2.2
  | badIndex h => exact .inr ⟨h, rfl⟩
  | row => exact absurd he (ne_of_busy (busy_completeRow s)).2.2
  | nextPass => cases he
  | lastPass => cases he

/-- A selector that a sound state rejects is none of the five (`30_encoding.md` R92). -/
theorem State.Sound.illegal_of_rejected (hs : s.Sound) (hf : s.fsm = .awaitingRow)
    (h : awaitingRowStep s = .next s.rejectSelector) : 4 < (s.inByte s.pos.inPtr.toNat).toNat := by
  refine Nat.lt_of_not_le fun legal => ?_
  have hx := hs.not_exhausted (.inl hf)
  have hi := (hs.decoding (busy_of_awaiting hf)).inPtr_lt hx
  exact nomatch congrArg State.fsm (Host.Outcome.next.inj (h.symm.trans (awaitingRowStep_of_legal hf hx hi legal)))

/-- START enters Error from outside BUSY, by the first check that fails. -/
theorem execStart_raises (h : execStart s = .next t) (hf : s.fsm ≠ .error) (he : t.fsm = .error) :
    s.busy = false ∧ ∃ e, s.cfg.startError s.caps = some e ∧ t = (s.withResult .accepted).dropPreviousResult.raise e := by
  rcases execStart_eq_next h with ⟨-, rfl⟩ | raised | ⟨-, -, rfl⟩
  · exact absurd he hf
  · exact raised
  · cases he

theorem execRelease_not_raises (h : execRelease s = .next t) (hf : s.fsm ≠ .error) : t.fsm ≠ .error := by
  rcases execRelease_eq_next h with ⟨-, rfl⟩ | ⟨-, rfl⟩
  · exact hf
  · exact Fsm.noConfusion

/-- A sound state enters Error in one of the three ways. -/
theorem State.Sound.errorEntry (hs : s.Sound) (h : step s = .next t) (hf : s.fsm ≠ .error) (he : t.fsm = .error) :
    ErrorEntry s t := by
  rcases step_eq_next h with ⟨turn, -⟩ | ⟨a, ha, hm⟩ | ⟨-, rfl⟩
  · rcases (hs.walkMove turn h).raises hf he with ⟨hw, rfl⟩ | ⟨hw, rfl⟩
    · exact .selector turn hw (hs.beginStep.illegal_of_rejected hw ((step_awaiting turn hw).symm.trans h))
    · exact .index turn hw
  · rcases hm.keeps_fsm with ⟨same, -⟩ | ⟨value, hv, ⟨hd, hx⟩ | ⟨-, hx⟩⟩
    · exact absurd (same.symm.trans he) hf
    · obtain ⟨hb, e, failed, rfl⟩ := execStart_raises hx hf he
      exact .start value (commandNext_of_command? ha hv) hd hb e failed
    · exact absurd he (execRelease_not_raises hx hf)
  · cases he

end

/-! ## What an entry leaves, and what the registers read after it -/

/-- The errors START raises (`60_exceptions.md` R291). -/
theorem CfgRegs.startError_code {c : CfgRegs} {caps : Capacity} {e : DecodeError} (h : c.startError caps = some e) :
    e.code ∈ ([5, 6, 7, 9, 12] : List Byte) := by
  unfold CfgRegs.startError at h
  split_ifs at h <;> cases h <;> decide

/-- R298: no conversion, no known unit of OUT and CONV, and the inputs kept. -/
theorem ErrorEntry.leaves {s t : State} (h : ErrorEntry s t) :
    t.convValid = false ∧ t.convFmt = false ∧ t.out = [] ∧ t.conv = [] ∧ SameInputs s t := by
  cases h <;> exact ⟨rfl, rfl, rfl, rfl, rfl, rfl, rfl, rfl⟩

theorem dbgFsm_of_error {s : State} (h : s.fsm = .error) : (s.readReg 0x30).extractLsb' 0 3 = 6 :=
  (dbgPosWord_fields s).1.trans (congrArg Fsm.code h)

theorem dbgByte_of_badSelector {s : State} (hf : s.fsm = .error) (hc : s.errCode = DecodeError.invalidFilterType.code) :
    s.readReg 0x38 = 0 :=
  (if_pos ⟨hf, hc⟩ : s.dbgByteWord = 0)

theorem dbgByte_of_other_code {s : State} (hc : s.errCode ≠ DecodeError.invalidFilterType.code) :
    s.readReg 0x38 = s.pos.lbyte :=
  (if_neg fun h => hc h.2 : s.dbgByteWord = s.pos.lbyte)

end Sys2Proof.Machine
end

section
/-! SUPPORT. The statements of `60_exceptions.md` settled. -/

namespace Sys2Proof.Machine

/-- Settles O49, entry by entry. -/
theorem errorsAriseInTheirThreePlaces : Obligations.ErrorsAriseInTheirThreePlaces := by
  intro s t hs h hf he
  have entry := hs.errorEntry h hf he
  obtain ⟨hvalid, hfmt, hout, hconv, inputs⟩ := entry.leaves
  refine ⟨?_, hvalid, hfmt, fun a => by rw [hout]; rfl, fun a => by rw [hconv]; rfl, inputs⟩
  cases entry with
  | start value next command notBusy e failed =>
    exact .inl ⟨notBusy, ⟨value, next, command⟩, CfgRegs.startError_code failed⟩
  | selector turn awaiting => exact .inr (.inl ⟨turn, awaiting, rfl, rfl, rfl⟩)
  | index turn unfiltering => exact .inr (.inr ⟨turn, unfiltering, rfl, rfl, rfl⟩)

/-- Settles O50: in BUSY an entry is the walk's, which leaves the position. -/
theorem runTimeErrorsNameTheirByte : Obligations.RunTimeErrorsNameTheirByte := by
  intro s t hs h hb he
  have codes : DecodeError.paletteIndexError.code ≠ DecodeError.invalidFilterType.code := by decide
  cases hs.errorEntry h (ne_of_busy hb).2.2 he with
  | start _ _ _ notBusy => exact nomatch notBusy.symm.trans hb
  | selector _ _ illegal =>
    exact ⟨rfl, dbgFsm_of_error rfl, rfl, rfl, fun _ => ⟨dbgByte_of_badSelector rfl rfl, illegal⟩,
      fun h11 => absurd h11.symm codes, .inl rfl⟩
  | index =>
    exact ⟨rfl, dbgFsm_of_error rfl, rfl, rfl, fun h10 => absurd h10 codes, fun _ => dbgByte_of_other_code codes, .inr rfl⟩

/-- Settles O51: the engine rests in Error, and the host leaves it by START or RELEASE alone. -/
theorem errorIsSticky : Obligations.ErrorIsSticky := by
  intro s t hf h
  rcases step_eq_next h with ⟨turn, -⟩ | ⟨a, ha, hm⟩ | ⟨reset, -⟩
  · have resting : s.busy = false := by rw [State.busy, hf]
    cases (step_resting turn resting).symm.trans h
    exact .inl ⟨hf, rfl⟩
  · rcases hm.keeps_fsm with ⟨same, code⟩ | ⟨value, hv, command⟩
    · exact .inl ⟨same.trans hf, code⟩
    · exact .inr (.inr ⟨value, commandNext_of_command? ha hv, command.imp And.left And.left⟩)
  · exact .inr (.inl reset)

end Sys2Proof.Machine
end

section
/-! SUPPORT. The engine steps that are left of a decode (`70_reset_and_hazards.md` R329): every move inside BUSY lowers their
number, so the engine alone ends a decode within it. -/

namespace Sys2Proof.Machine

section
variable {s t : State}

/-! ## The steps left, by state -/

/-- The engine steps of the passes of the image after pass `q`. -/
def RunRegs.stepsAfter (r : RunRegs) (q : Nat) : Nat :=
  (((imagePasses r.il).filter (q < ·)).map (passSteps r.w.toNat r.h.toNat r.pbits)).sum

theorem stepsLeft_awaiting (h : s.fsm = .awaitingRow) :
    s.stepsLeft = (s.rowsToCome + 1) * (s.geo.rb + 2) + 1 + s.run.stepsAfter s.pos.pass.toNat := by
  simp only [State.stepsLeft, h]
  rfl

theorem stepsLeft_unfiltering (h : s.fsm = .unfilteringRow) :
    s.stepsLeft = (s.geo.rb - s.pos.lbyte.toNat) + 1 + s.rowsToCome * (s.geo.rb + 2) + 1 +
      s.run.stepsAfter s.pos.pass.toNat := by
  simp only [State.stepsLeft, h]
  rfl

theorem stepsLeft_rowComplete (h : s.fsm = .rowComplete) :
    s.stepsLeft = 1 + s.rowsToCome * (s.geo.rb + 2) + 1 + s.run.stepsAfter s.pos.pass.toNat := by
  simp only [State.stepsLeft, h]
  rfl

theorem stepsLeft_passComplete (h : s.fsm = .passComplete) : s.stepsLeft = 1 + s.run.stepsAfter s.pos.pass.toNat := by
  simp only [State.stepsLeft, h]
  rfl

theorem stepsLeft_of_not_busy (h : s.busy = false) : s.stepsLeft = 0 := by
  cases hf : s.fsm with
  | idle | done | error => simp only [State.stepsLeft, hf]
  | awaitingRow | unfilteringRow | rowComplete | passComplete => simp [State.busy, hf] at h

theorem stepsLeft_pos (h : s.busy = true) : 0 < s.stepsLeft := by
  cases hf : s.fsm with
  | idle | done | error => simp [State.busy, hf] at h
  | awaitingRow => rw [stepsLeft_awaiting hf]; omega
  | unfilteringRow => rw [stepsLeft_unfiltering hf]; omega
  | rowComplete => rw [stepsLeft_rowComplete hf]; omega
  | passComplete => rw [stepsLeft_passComplete hf]; omega

/-! ## The steps of a pass and of those after it -/

theorem passSteps_empty {q w h : Nat} (pb : Nat) (he : passNonEmpty q w h = false) : passSteps w h pb q = 0 := by
  simp [passSteps, he]

theorem passSteps_of_nonEmpty {q w h : Nat} (pb : Nat) (hn : passNonEmpty q w h = true) :
    passSteps w h pb q = passRows q h * (rowBytes q w pb + 2) + 1 :=
  if_pos hn

/-- The steps of the later passes are those of the next one and of the passes after it. -/
theorem stepsAfter_of_next {r : RunRegs} (hi : r.il ≠ 0) {p q : Nat} (hq : nextPass p r.w.toNat r.h.toNat = some q) :
    r.stepsAfter p = passSteps r.w.toNat r.h.toNat r.pbits q + r.stepsAfter q := by
  obtain ⟨hp, -⟩ := nextPass_eq_some_iff.1 hq
  rw [RunRegs.stepsAfter, RunRegs.stepsAfter, filter_gt_image hi, filter_gt_image hi, ← laterPasses_filter hp]
  exact sum_find (laterPasses_pairwise p) (fun _ => passSteps_empty r.pbits) hq

/-- A pass entered has all of its steps left, and those of the passes after it (R161). -/
theorem stepsLeft_enterPass {q : Nat} (h7 : q ≤ 7) (hn : passNonEmpty q s.run.w.toNat s.run.h.toNat = true) :
    ({ s.enterPass q with fsm := .awaitingRow } : State).stepsLeft =
      passSteps s.run.w.toNat s.run.h.toNat s.run.pbits q + s.run.stepsAfter q := by
  have pass : (BitVec.ofNat 3 q).toNat = q := ofNat_three_toNat h7
  have rows : ({ s.enterPass q with fsm := .awaitingRow } : State).rowsToCome + 1 = passRows q s.run.h.toNat := by
    change (GeoRegs.ofPass q _ _ _).prows.toNat - (0 + 1) + 1 = _
    rw [GeoRegs.ofPass_prows s.run.h.isLt]
    exact Nat.sub_add_cancel (passNonEmpty_iff.1 hn).2
  rw [stepsLeft_awaiting rfl, rows, passSteps_of_nonEmpty _ hn]
  change _ + s.run.stepsAfter (BitVec.ofNat 3 q).toNat = _
  rw [pass]
  rfl

/-- A walk that begins has the count of R329 left. -/
theorem stepsLeft_beginWalk (accepted : s.cfg.startError s.caps = none) (latched : s.run = s.cfg.latched) :
    s.beginWalk.stepsLeft = decodeSteps s.cfg := by
  obtain ⟨hw, hh⟩ := nonempty_of_latched accepted latched
  have mem : firstPass s.run.il s.run.w.toNat s.run.h.toNat ∈ imagePasses s.run.il := firstPass_mem _ hw hh
  have count : decodeSteps s.cfg = ((imagePasses s.run.il).map (passSteps s.run.w.toNat s.run.h.toNat s.run.pbits)).sum := by
    rw [latched]
    rfl
  rw [count, sum_find (imagePasses_pairwise _) (fun _ => passSteps_empty _) (find?_firstPass s.run.il hw hh)]
  exact stepsLeft_enterPass (s := { s with pos := { s.pos with inPtr := 0 } }) (imagePasses_le mem) (firstPass_nonEmpty _ hw hh)

/-! ## Every move inside BUSY takes one of the steps left -/

theorem stepsLeft_takeSelector (hf : s.fsm = .awaitingRow) (ftype : BitVec 3) :
    (s.takeSelector ftype).stepsLeft < s.stepsLeft := by
  rw [stepsLeft_awaiting hf, Nat.succ_mul, stepsLeft_unfiltering rfl]
  change s.geo.rb - 0 + 1 + s.rowsToCome * (s.geo.rb + 2) + 1 + s.run.stepsAfter s.pos.pass.toNat < _
  omega

theorem State.Decoding.stepsLeft_afterByte (hd : s.Decoding) (hf : s.fsm = .unfilteringRow) (out : List (Nat × Half)) :
    (s.afterByte out).stepsLeft < s.stepsLeft := by
  have hb := hd.byte hf
  have lbyte := hd.lbyte_add_one hf
  rw [stepsLeft_unfiltering hf]
  by_cases he : s.pos.lbyte.toNat + 1 = s.geo.rb
  · rw [stepsLeft_rowComplete (if_pos he)]
    change 1 + s.rowsToCome * (s.geo.rb + 2) + 1 + s.run.stepsAfter s.pos.pass.toNat < _
    omega
  · rw [stepsLeft_unfiltering (if_neg he)]
    change s.geo.rb - (s.pos.lbyte + 1).toNat + 1 + s.rowsToCome * (s.geo.rb + 2) + 1 +
      s.run.stepsAfter s.pos.pass.toNat < _
    omega

theorem State.Decoding.stepsLeft_completeRow (hd : s.Decoding) (hf : s.fsm = .rowComplete) :
    s.completeRow.stepsLeft < s.stepsLeft := by
  have lrow := hd.lrow_add_one (by simp [hf])
  rw [stepsLeft_rowComplete hf]
  by_cases more : s.pos.lrow.toNat + 1 < s.geo.prows.toNat
  · have rows : s.completeRow.rowsToCome + 1 = s.rowsToCome := by
      change s.geo.prows.toNat - ((s.pos.lrow + 1).toNat + 1) + 1 = s.geo.prows.toNat - (s.pos.lrow.toNat + 1)
      omega
    rw [stepsLeft_awaiting (if_pos more), rows]
    change s.rowsToCome * (s.geo.rb + 2) + 1 + s.run.stepsAfter s.pos.pass.toNat < _
    omega
  · rw [stepsLeft_passComplete (if_neg more)]
    change 1 + s.run.stepsAfter s.pos.pass.toNat < _
    omega

theorem WalkMove.stepsLeft_lt (hm : WalkMove s t) (hd : s.Decoding) (hb : s.busy = true) : t.stepsLeft < s.stepsLeft := by
  cases hm with
  | rest h => exact nomatch h.symm.trans hb
  | badSelector | badIndex | lastPass =>
    rw [stepsLeft_of_not_busy rfl]
    exact stepsLeft_pos hb
  | selector hf ftype => exact stepsLeft_takeSelector hf ftype
  | dataByte hf out => exact hd.stepsLeft_afterByte hf out
  | row hf => exact hd.stepsLeft_completeRow hf
  | nextPass hf hi q hq =>
    obtain ⟨-, h7, hn, -⟩ := nextPass_eq_some_iff.1 hq
    rw [stepsLeft_enterPass h7 hn, stepsLeft_passComplete hf, stepsAfter_of_next hi hq]
    omega

/-! ## The engine alone -/

theorem WalkMove.agenda (hm : WalkMove s t) : t.agenda = s.agenda := by
  cases hm <;> rfl

theorem WalkMove.not_idle (hm : WalkMove s t) (h : s.fsm ≠ .idle) : t.fsm ≠ .idle := by
  cases hm with
  | rest => exact h
  | selector | badSelector | badIndex | nextPass | lastPass => exact nofun
  | dataByte _ out => exact (ne_of_busy (busy_afterByte s out)).1
  | row => exact (ne_of_busy (busy_completeRow s)).1

theorem ended_of_not_busy (hb : s.busy = false) (not_idle : s.fsm ≠ .idle) : s.fsm = .done ∨ s.fsm = .error := by
  cases hf : s.fsm with
  | idle => exact absurd hf not_idle
  | done => exact .inl rfl
  | error => exact .inr rfl
  | awaitingRow | unfilteringRow | rowComplete | passComplete => simp [State.busy, hf] at hb

/-- With nothing on the agenda the engine reaches Done or Error within the steps left. -/
theorem State.Sound.run_ends (hs : s.Sound) (empty : s.agenda = []) (not_idle : s.fsm ≠ .idle) :
    ∃ k, k ≤ s.stepsLeft ∧ ∃ u : State, core.run k s = .next u ∧ (u.fsm = .done ∨ u.fsm = .error) := by
  induction left : s.stepsLeft using Nat.strong_induction_on generalizing s with
  | _ n ih =>
    subst left
    by_cases hb : s.busy = true
    case neg =>
      exact ⟨0, Nat.zero_le _, s, rfl, ended_of_not_busy (by simpa using hb) not_idle⟩
    obtain ⟨t, ht, hm⟩ := hs.beginStep.engine_goes_on
    have first : core.step s = .next t := (step_engine (.inl (by rw [empty]; rfl))).trans ht
    have fewer : t.stepsLeft < s.stepsLeft := hm.stepsLeft_lt (hs.beginStep.decoding hb) hb
    have empty' : t.agenda = [] := by rw [hm.agenda, State.beginStep_agenda, empty]; rfl
    obtain ⟨k, hk, u, hu, ended⟩ := ih _ fewer (hm.sound hs.beginStep) empty' (hm.not_idle not_idle) rfl
    exact ⟨k + 1, by omega, u, (run_succ first k).trans hu, ended⟩

end

end Sys2Proof.Machine
end

section
/-! SUPPORT. The statement of `70_reset_and_hazards.md` §4 settled. -/

namespace Sys2Proof.Machine

/-- Settles O56: START fails at once, or begins a walk with the count of R329 left. -/
theorem everyDecodeEndsInTime : Obligations.EveryDecodeEndsInTime := by
  intro s hs hb agenda
  have next : s.commandNext 1 := by rw [State.commandNext, agenda]; rfl
  have start : step s = execStart s.beginStep := step_command next rfl
  cases checks : s.cfg.startError s.caps with
  | some e =>
    exact ⟨_, start.trans (execStart_of_startError hb checks), rfl, 0, Nat.zero_le _, _, rfl, .inr rfl⟩
  | none =>
    have begun := execStart_of_accepted (s := s.beginStep) hb checks
    have count := stepsLeft_beginWalk (s := (s.beginStep.withResult .accepted).dropPreviousResult.latchRun) checks rfl
    have empty : s.beginStep.agenda = [] := by rw [State.beginStep_agenda, agenda]; rfl
    obtain ⟨k, hk, ended⟩ := (hs.beginStep.after_start begun).run_ends empty nofun
    exact ⟨_, start.trans begun, rfl, k, hk.trans_eq count, ended⟩

end Sys2Proof.Machine
end
